-- ==== Sys2Proof/Word.lean ====
section
/-! DEFINITION. The word types of WGCORE: 00_scope.md rules R8 and R10 (every value is an unsigned integer of the
width stated; there is no signed arithmetic). -/

namespace Sys2Proof

/-- A `u32`: every datapath value and register (R8, R10). -/
abbrev Word := BitVec 32

/-- A `u8`: a key, data or block byte (R10). -/
abbrev Byte := BitVec 8

/-- A host-visible byte offset, 0x000 to 0xFFF (20_memory.md R50). -/
abbrev Offset := BitVec 12

end Sys2Proof
end

