-- ==== Sys2Proof/Syntax.lean ====
section
/-! DEFINITION. The command set WGCORE-1: one constructor for each row of spec/opcode_table.json (30_encoding.md rules
R83 and R84), with the operands that stand in the command word (R81). Operands that come from registers (R82) are no
part of a command. -/

namespace Sys2Proof

/-- A command of WGCORE-1. -/
inductive Instr where
  /-- 40_bitops.md R103 -/
  | nop
  /-- 40_bitops.md R104; `n = w[12:8]` -/
  | ror32 (n : BitVec 5)
  /-- 40_bitops.md R105; `lsb = w[12:8]`, `width = w[21:16]` -/
  | extract (lsb : BitVec 5) (width : BitVec 6)
  /-- 41_substitution.md R125 -/
  | mix
  /-- 42_permutation.md R145 -/
  | prepare
  /-- 42_permutation.md R146 -/
  | finalize
  /-- 43_feistel.md R163; `k = w[15:8]` -/
  | round (k : BitVec 8)
  /-- 43_feistel.md R164 -/
  | bstart
  /-- 43_feistel.md R165 -/
  | bfinish
  /-- 43_feistel.md R166 -/
  | encblk
  /-- 44_chaining.md R191 -/
  | cbcinit
  /-- 44_chaining.md R192 -/
  | cbcblk
  /-- 44_chaining.md R193 -/
  | cbcbuf
  deriving DecidableEq, Repr

end Sys2Proof
end

