-- ==== Sys2Proof/WellFormed.lean ====
section
/-! DEFINITION. Which commands can be encoded: the operand ranges of 30_encoding.md rule R81. The operand types hold
every range but one: EXTRACT's width is a 6-bit field of which only 0..32 are legal. -/

namespace Sys2Proof

/-- Every operand is in its legal range (R81); EXTRACT with width 33..63 is no command (R85). -/
def Instr.wellFormed : Instr → Bool
  | .nop => true
  | .ror32 _ => true
  | .extract _ width => decide (width.toNat ≤ 32)
  | .mix => true
  | .prepare => true
  | .finalize => true
  | .round _ => true
  | .bstart => true
  | .bfinish => true
  | .encblk => true
  | .cbcinit => true
  | .cbcblk => true
  | .cbcbuf => true

end Sys2Proof
end

