-- ==== Sys2Proof/Decode.lean ====
section
/-! DEFINITION. The decoder of command words (30_encoding.md rules R80 to R86), total on every 32-bit word and
refusing by name, and after it the encoder (R84, R87). -/

namespace Sys2Proof

/-- Why a word is no command: the four cases of R85. -/
inductive IllegalWord where
  /-- opcode 0x07 or 0x0E to 0xFF -/
  | reservedOpcode
  /-- RSV (bits 31:22) not zero -/
  | reservedBits
  /-- a field that must be 0 is not -/
  | mustBeZeroField
  /-- EXTRACT with width 33..63 -/
  | extractWidth
  deriving DecidableEq, Repr

/-- The fields of format F0 (R80). -/
def opcField (w : Word) : BitVec 8 := w.extractLsb' 0 8

/-- Field FA, bits 15:8 (R80). -/
def faField (w : Word) : BitVec 8 := w.extractLsb' 8 8

/-- Field FB, bits 21:16 (R80). -/
def fbField (w : Word) : BitVec 6 := w.extractLsb' 16 6

/-- Field RSV, bits 31:22 (R80). -/
def rsvField (w : Word) : BitVec 10 := w.extractLsb' 22 10

/-- The 5-bit operand in the low bits of FA, `w[12:8]`: ROR32's amount and EXTRACT's lsb (R81). -/
def fa5Field (w : Word) : BitVec 5 := w.extractLsb' 8 5

/-- One row of R84: a word is this command iff `(w & mask) = pattern` and the extra condition holds; `build` reads
its operands (R81). -/
structure Row where
  pattern : Word
  mask : Word
  extra : Word → Bool
  build : Word → Instr

/-- A word matches a row of R84. -/
def rowMatches (r : Row) (w : Word) : Bool := decide (w &&& r.mask = r.pattern) && r.extra w

/-- A row whose every bit is fixed (mask 0xFFFFFFFF in R84). -/
def fixedRow (pattern : Word) (i : Instr) : Row :=
  { pattern := pattern, mask := 0xFFFFFFFF#32, extra := fun _ => true, build := fun _ => i }

/-- The thirteen rows of R84, in the table's order. -/
def opcodeRows : List Row :=
  [ fixedRow 0x00000000#32 .nop,
    { pattern := 0x00000001#32, mask := 0xFFFFE0FF#32, extra := fun _ => true,
      build := fun w => .ror32 (fa5Field w) },
    { pattern := 0x00000002#32, mask := 0xFFC0E0FF#32, extra := fun w => decide ((fbField w).toNat ≤ 32),
      build := fun w => .extract (fa5Field w) (fbField w) },
    fixedRow 0x00000003#32 .mix,
    fixedRow 0x00000004#32 .prepare,
    fixedRow 0x00000005#32 .finalize,
    { pattern := 0x00000006#32, mask := 0xFFFF00FF#32, extra := fun _ => true,
      build := fun w => .round (faField w) } ] ++
  [ fixedRow 0x00000008#32 .bstart,
    fixedRow 0x00000009#32 .bfinish,
    fixedRow 0x0000000A#32 .encblk,
    fixedRow 0x0000000B#32 .cbcinit,
    fixedRow 0x0000000C#32 .cbcblk,
    fixedRow 0x0000000D#32 .cbcbuf ]

/-- The opcode is reserved (R83): 0x07 or 0x0E to 0xFF. -/
def reservedOpcode (w : Word) : Bool := decide (opcField w = 0x07#8) || decide (0x0E ≤ (opcField w).toNat)

/-- The name of the case of R85 that makes a word illegal, asked only of a word that matches no row. Where several
cases hold the first of R85's list is named; the spec records ILLEGAL_COMMAND for all of them alike. -/
def illegalReason (w : Word) : IllegalWord :=
  if reservedOpcode w then .reservedOpcode
  else if rsvField w ≠ 0#10 then .reservedBits
  else if opcField w = 0x02#8 ∧ w &&& 0x0000E000#32 = 0#32 then .extractWidth
  else .mustBeZeroField

/-- The command of a word, or why there is none. Decided by the word alone (R86). -/
def decode (w : Word) : Except IllegalWord Instr :=
  match opcodeRows.find? (fun r => rowMatches r w) with
  | some r => .ok (r.build w)
  | none => .error (illegalReason w)

/-- Format F0 put together from its fields, RSV zero (R80). -/
def assembleF0 (opc fa : BitVec 8) (fb : BitVec 6) : Word :=
  opc.setWidth 32 ||| (fa.setWidth 32 <<< 8) ||| (fb.setWidth 32 <<< 16)

/-- The word of a command (R84, R87). -/
def encode : Instr → Word
  | .nop => assembleF0 0x00#8 0#8 0#6
  | .ror32 n => assembleF0 0x01#8 (n.setWidth 8) 0#6
  | .extract lsb width => assembleF0 0x02#8 (lsb.setWidth 8) width
  | .mix => assembleF0 0x03#8 0#8 0#6
  | .prepare => assembleF0 0x04#8 0#8 0#6
  | .finalize => assembleF0 0x05#8 0#8 0#6
  | .round k => assembleF0 0x06#8 k 0#6
  | .bstart => assembleF0 0x08#8 0#8 0#6
  | .bfinish => assembleF0 0x09#8 0#8 0#6
  | .encblk => assembleF0 0x0A#8 0#8 0#6
  | .cbcinit => assembleF0 0x0B#8 0#8 0#6
  | .cbcblk => assembleF0 0x0C#8 0#8 0#6
  | .cbcbuf => assembleF0 0x0D#8 0#8 0#6

/-- The command word that an opcode-table row's bits stand for: a command is one 32-bit bus word (R80), so the bits
are the word itself, those at `nbits` and above being 0. -/
def commandWordOf (nbits w : Nat) : Word := BitVec.ofNat 32 (w % 2 ^ nbits)

/-- The instruction the decoder reads from an opcode-table row's bits. -/
def decodeTableWord (nbits w : Nat) : Option Instr :=
  match decode (commandWordOf nbits w) with
  | .ok i => some i
  | .error _ => none

end Sys2Proof
end

