-- ==== Sys2Proof/Config.lean ====
section
/-! DEFINITION. The implementation parameters of WGCORE: 00_scope.md rule R7. The spec's default of each, which the
machine fixes (log entry 2), is put together in Machine/Parameters.lean. -/

namespace Sys2Proof

/-- What an implementation fixes (R7; 10_state.md R21: "These are parameters, not state"). -/
structure Config where
  /-- KEY_BYTES_MAX: the size of KEYMEM in bytes -/
  keyBytesMax : Nat
  /-- DATA_BYTES_MAX: the size of DATAMEM in bytes -/
  dataBytesMax : Nat
  /-- SBOX(t, i): the S-box ROM, read by `mix` alone (10_state.md R34, R35) -/
  sbox : Fin 8 → BitVec 6 → Word
  /-- PREPARE_NET: the initial permutation (halfR, halfL) ↦ (first result, second result), by position (R14) -/
  prepareNet : Word → Word → Word × Word
  /-- FINALIZE_NET: the final permutation, by position -/
  finalizeNet : Word → Word → Word × Word

/-- The legal values of the parameters (R7). -/
structure Config.Legal (c : Config) : Prop where
  keyBytes_multiple : c.keyBytesMax % 16 = 0
  keyBytes_range : 16 ≤ c.keyBytesMax ∧ c.keyBytesMax ≤ 1024
  dataBytes_multiple : c.dataBytesMax % 8 = 0
  dataBytes_range : 8 ≤ c.dataBytesMax ∧ c.dataBytesMax ≤ 2048
  prepare_bijective : Function.Bijective (fun p : Word × Word => c.prepareNet p.1 p.2)
  finalize_bijective : Function.Bijective (fun p : Word × Word => c.finalizeNet p.1 p.2)

end Sys2Proof
end

