-- ==== Sys2Proof/Machine/Bits.lean ====
section
/-! DEFINITION. The bit and byte helpers every other file uses: rotate and extract (40_bitops.md rules R101 and R102)
and the little-endian packing of words (00_scope.md R12). -/

namespace Sys2Proof.Machine

/-- `ror32(v, n)`, n in 0..31: rotate right with wraparound (R101). For n = 0 the left shift by 32 gives 0. -/
def ror32 (v : Word) (n : Nat) : Word := (v >>> n) ||| (v <<< (32 - n))

/-- `mask(w) = (1 << w) - 1` in unbounded integers, then narrowed to 32 bits (R11). -/
def maskOf (width : Nat) : Word := BitVec.ofNat 32 (2 ^ width - 1)

/-- `extractBits(v, lsb, width)`: the zero-extended field; bits past 31 read as zeros (R102). -/
def extractBits (v : Word) (lsb width : Nat) : Word := (v >>> lsb) &&& maskOf width

/-- Byte `o` of a byte string. Every use by the machine is inside the string; past its end, which only the pure and
host-side functions can reach and only outside their stated domains, it reads 0 (DESIGN CHOICE, log entry 13). -/
def byteAt (b : List Byte) (o : Nat) : Byte := b.getD o 0#8

/-- `le32(b, o)`: four bytes as a little-endian word (R12). -/
def le32 (b : List Byte) (o : Nat) : Word :=
  (byteAt b o).setWidth 32 ||| (byteAt b (o + 1)).setWidth 32 <<< 8 |||
    (byteAt b (o + 2)).setWidth 32 <<< 16 ||| (byteAt b (o + 3)).setWidth 32 <<< 24

/-- `be32(b, o)`: four bytes as a big-endian word (R12). -/
def be32 (b : List Byte) (o : Nat) : Word :=
  (byteAt b o).setWidth 32 <<< 24 ||| (byteAt b (o + 1)).setWidth 32 <<< 16 |||
    (byteAt b (o + 2)).setWidth 32 <<< 8 ||| (byteAt b (o + 3)).setWidth 32

/-- `pack_le32(w)`: a word's four bytes, least significant first (R12). -/
def packLe32 (w : Word) : List Byte :=
  [w.extractLsb' 0 8, w.extractLsb' 8 8, w.extractLsb' 16 8, w.extractLsb' 24 8]

/-- An 8-byte block as its register pair (X0, X1) (10_state.md R24). -/
abbrev Block := Word × Word

/-- The block whose bytes start at `o` (R24). -/
def blockOf (b : List Byte) (o : Nat) : Block := (le32 b o, le32 b (o + 4))

/-- The bytes of a block: `pack_le32(X0) ++ pack_le32(X1)` (R24). -/
def blockBytes (x : Block) : List Byte := packLe32 x.1 ++ packLe32 x.2

/-- XOR of two blocks: the byte-wise XOR of 44_chaining.md R190, as words (R192). -/
def xorBlock (x y : Block) : Block := (x.1 ^^^ y.1, x.2 ^^^ y.2)

/-- The consecutive 8-byte blocks of a byte string (R37); bytes after the last whole block are left out (log entry
13). -/
def blocksOf (b : List Byte) : List Block := (List.range (b.length / 8)).map fun i => blockOf b (8 * i)

end Sys2Proof.Machine
end

