-- ==== Sys2Proof/Machine/Cipher.lean ====
section
/-! DEFINITION. The source's pure functions, for every configuration: `mix` (41_substitution.md), `round` and
`encryptBlock` (43_feistel.md), `encryptChained` (44_chaining.md). They read no state and write none (R13, R100).
What they answer outside their preconditions is log entry 13. -/

namespace Sys2Proof.Machine

/-- The 6-bit field of a word at bit offset `o`: F0 to F3 at offsets 2, 10, 18 and 26 (41_substitution.md R120). -/
def mixField (w : Word) (o : Nat) : BitVec 6 := w.extractLsb' o 6

/-- `mix(w1, w2)`: the fields of w1 index tables 0, 2, 4, 6 and those of w2 tables 1, 3, 5, 7 (R121). -/
def mix (c : Config) (w1 w2 : Word) : Word :=
  c.sbox 0 (mixField w1 2) ^^^ c.sbox 2 (mixField w1 10) ^^^ c.sbox 4 (mixField w1 18) ^^^ c.sbox 6 (mixField w1 26) ^^^
    c.sbox 1 (mixField w2 2) ^^^ c.sbox 3 (mixField w2 10) ^^^ c.sbox 5 (mixField w2 18) ^^^ c.sbox 7 (mixField w2 26)

/-- A decoded 16-byte key chunk: the round key of one round (43_feistel.md R160, 00_scope.md R15). -/
structure RoundKey where
  kL1 : Word
  kR1 : Word
  kL2 : Word
  kR2 : Word
  deriving DecidableEq, Repr

/-- Chunk `k` of a key: bytes 16k to 16k+15 as four little-endian words (R160). -/
def chunkOf (key : List Byte) (k : Nat) : RoundKey where
  kL1 := le32 key (16 * k)
  kR1 := le32 key (16 * k + 4)
  kL2 := le32 key (16 * k + 8)
  kR2 := le32 key (16 * k + 12)

/-- The round keys of a key, in order, once each (R162). -/
def roundKeys (key : List Byte) : List RoundKey := (List.range (key.length / 16)).map (chunkOf key)

/-- What one half-round XORs into the other half: the state word whitened with both key words, the second rotated
right by 4, then mixed (R161). -/
def halfRound (c : Config) (kL kR s : Word) : Word := mix c (kL ^^^ s) (ror32 (kR ^^^ s) 4)

/-- `round` on the round state (stateL, stateR): stateR from stateL, then stateL from the new stateR (R161). -/
def roundStep (c : Config) (k : RoundKey) (st : Word × Word) : Word × Word :=
  let sR := st.2 ^^^ halfRound c k.kL1 k.kR1 st.1
  let sL := halfRound c k.kL2 k.kR2 sR ^^^ st.1
  (sL, sR)

/-- The round state (nextL, nextR) after prepare and every round, the input block being (clearR, clearL) (R162). -/
def roundState (c : Config) (keys : List RoundKey) (b : Block) : Word × Word :=
  keys.foldl (fun st k => roundStep c k st) (c.prepareNet b.1 b.2)

/-- The output block (outR, outL) of a round state: finalize with its arguments swapped (R162). -/
def finishBlock (c : Config) (st : Word × Word) : Block := c.finalizeNet st.2 st.1

/-- `encryptBlock` on register pairs (R162). -/
def encryptWords (c : Config) (keys : List RoundKey) (b : Block) : Block := finishBlock c (roundState c keys b)

/-- `encryptBlock(b[0..7], K)` on bytes (R162). -/
def encryptBlock (c : Config) (b key : List Byte) : List Byte :=
  blockBytes (encryptWords c (roundKeys key) (blockOf b 0))

/-- The round states a chain leaves, one a block, the accumulator before the first block being `prev` (44_chaining.md
R190): each block is XORed with the accumulator, and the accumulator becomes its ciphertext. -/
def chainStates (c : Config) (keys : List RoundKey) (prev : Block) : List Block → List (Word × Word)
  | [] => []
  | p :: ps =>
    let st := roundState c keys (xorBlock p prev)
    st :: chainStates c keys (finishBlock c st) ps

/-- `encryptChained(P, K)` on bytes; the accumulator starts at 8 zero bytes (R190). -/
def encryptChained (c : Config) (plain key : List Byte) : List Byte :=
  ((chainStates c (roundKeys key) (0#32, 0#32) (blocksOf plain)).map
    fun st => blockBytes (finishBlock c st)).flatten

end Sys2Proof.Machine
end

