-- ==== Sys2Proof/Machine/State.lean ====
section
/-! DEFINITION. The state of WGCORE as plain data (10_state.md rule R21), its value after hard reset
(70_reset_and_hazards.md R240), what the host may send to it, and the ways a step can stop. -/

namespace Sys2Proof.Machine

/-- A memory whose bytes are each a u8 or UNWRITTEN (10_state.md R33): the written bytes as (index, byte) pairs with
strictly rising indices. An index that is not listed is UNWRITTEN: it has no value, and reading it faults. -/
abbrev Memory := List Host.Cell

/-- One host bus access (20_memory.md R51, R52): its width, its byte offset and, for a write, its data. Every width
can be issued; which accesses are admitted is the bus's business. -/
inductive Access where
  | readByte (o : Offset)
  | readHalf (o : Offset)
  | readWord (o : Offset)
  | writeByte (o : Offset) (v : Byte)
  | writeHalf (o : Offset) (v : BitVec 16)
  | writeWord (o : Offset) (v : Word)
  deriving DecidableEq, Repr

/-- What can reach WGCORE from outside. -/
inductive Input where
  /-- an access of the one host (R20, R227) -/
  | access (a : Access)
  /-- the platform drives the hard-reset input (70_reset_and_hazards.md R240, RESET_SOURCE) -/
  | hardReset
  /-- an access of a second host, to which the spec gives no meaning (60_exceptions.md R225) -/
  | otherHost (a : Access)
  deriving DecidableEq, Repr

/-- What the last input was answered with on the bus (DESIGN CHOICE, log entry 3). -/
inductive Response where
  /-- nothing yet since hard reset -/
  | idle
  /-- a write was accepted -/
  | done
  /-- the byte an 8-bit read returned -/
  | byte (v : Byte)
  /-- the word a 32-bit read returned -/
  | word (v : Word)
  deriving DecidableEq, Repr

/-- The four causes of a PreconditionViolation (60_exceptions.md R210); ECODE values 5 to 15 are never recorded. -/
inductive Violation where
  | illegalCommand
  | keylenInvalid
  | dlenInvalid
  | roundIndex
  deriving DecidableEq, Repr

/-- The model faults of 60_exceptions.md R216. -/
inductive Fault where
  /-- BUS_ERROR: raised by a host access that 20_memory.md R51 to R53 do not admit. Safe: the hardware goes on with no
  effect, so claims about such a run only become unprovable. -/
  | busError
  /-- UNWRITTEN_READ: raised by a command or a host read that reads an UNWRITTEN byte. Safe: the hardware returns
  unspecified bytes, and no value is chosen here. -/
  | unwrittenRead
  deriving DecidableEq, Repr

/-- What the model gives no meaning. -/
inductive Refusal where
  /-- Raised by no arm of `exec`: every command has its meaning. Safe. -/
  | notModelled (mnemonic : String)
  /-- Raised by an access of a second host: "The spec gives that case no meaning, and a model refuses it" (60_exceptions.md
  R225). Safe. -/
  | secondHost
  deriving DecidableEq, Repr

/-- The names of the fourteen data registers (10_state.md R22). -/
inductive Reg where
  | keylen | dlen | opa | opb | res0 | res1 | sl | sr | prev0 | prev1 | din0 | din1 | dout0 | dout1
  deriving DecidableEq, Repr

/-- The state of one WGCORE: the record of 10_state.md R21, then two fields of the model's own. -/
structure State where
  keylen : Word
  dlen : Word
  opa : Word
  opb : Word
  res0 : Word
  res1 : Word
  sl : Word
  sr : Word
  prev0 : Word
  prev1 : Word
  din0 : Word
  din1 : Word
  dout0 : Word
  dout1 : Word
  /-- STATUS.ERR (R28) -/
  err : Bool
  /-- STATUS.ECODE (R28) -/
  ecode : BitVec 4
  /-- KEYMEM, keyed by byte index (R36) -/
  keymem : Memory
  /-- DATAMEM, keyed by byte index (R37) -/
  datamem : Memory
  /-- the MODEL's own (log entry 1): the inputs still to come, the next one first -/
  inputs : List Input
  /-- the MODEL's own (log entry 3): what the last input was answered with -/
  response : Response
  deriving DecidableEq, Repr

/-- Hard reset at power-on (R240): every register 0, no error, every memory byte UNWRITTEN. -/
def State.reset : State where
  keylen := 0#32
  dlen := 0#32
  opa := 0#32
  opb := 0#32
  res0 := 0#32
  res1 := 0#32
  sl := 0#32
  sr := 0#32
  prev0 := 0#32
  prev1 := 0#32
  din0 := 0#32
  din1 := 0#32
  dout0 := 0#32
  dout1 := 0#32
  err := false
  ecode := 0#4
  keymem := []
  datamem := []
  inputs := []
  response := .idle

end Sys2Proof.Machine
end

