-- ==== Sys2Proof/Machine/Flags.lean ====
section
/-! DEFINITION. The flags and the read-only words made of them: STATUS and its fields (10_state.md rules R28 and R38),
ID (R26), CONFIG (R27), and the checks of KEYLEN and DLEN (60_exceptions.md R210, R211). -/

namespace Sys2Proof.Machine

/-- A key of `n` bytes is one that WGCORE takes: a positive multiple of 16, at most KEY_BYTES_MAX (R28). -/
def keyLengthOk (c : Config) (n : Nat) : Bool :=
  decide (n ≠ 0) && decide (n % 16 = 0) && decide (n ≤ c.keyBytesMax)

/-- STATUS.KEYOK of a KEYLEN value (R28). -/
def keyOk (c : Config) (keylen : Word) : Bool := keyLengthOk c keylen.toNat

/-- The number of rounds of a key of KEYLEN bytes (00_scope.md R8). -/
def roundCount (keylen : Word) : Nat := keylen.toNat / 16

/-- STATUS.NROUNDS of a KEYLEN value (R28). -/
def nRounds (c : Config) (keylen : Word) : BitVec 8 :=
  if keyOk c keylen then BitVec.ofNat 8 (roundCount keylen) else 0#8

/-- DLEN is acceptable to CBCBUF (44_chaining.md R193, 60_exceptions.md R211 step 4). -/
def dlenOk (c : Config) (dlen : Word) : Bool :=
  decide (dlen.toNat % 8 = 0) && decide (dlen.toNat ≤ c.dataBytesMax)

/-- The code ECODE records for a violation (60_exceptions.md R210). -/
def violationCode : Violation → BitVec 4
  | .illegalCommand => 1#4
  | .keylenInvalid => 2#4
  | .dlenInvalid => 3#4
  | .roundIndex => 4#4

/-- What STATUS reads (R28): ERR bit 0, KEYOK bit 1, ECODE bits 7:4, NROUNDS bits 15:8, every other bit 0. -/
def statusWord (c : Config) (s : State) : Word :=
  (BitVec.ofBool s.err).setWidth 32 ||| ((BitVec.ofBool (keyOk c s.keylen)).setWidth 32 <<< 1) |||
    (s.ecode.setWidth 32 <<< 4) ||| ((nRounds c s.keylen).setWidth 32 <<< 8)

/-- What ID reads, always: the ASCII bytes "WGR1" (R26). -/
def idWord : Word := 0x57475231#32

/-- What CONFIG reads (R27): KEYCHUNKS in bits 15:0, DATABLOCKS in bits 31:16. -/
def configWord (c : Config) : Word :=
  (BitVec.ofNat 16 (c.keyBytesMax / 16)).setWidth 32 ||| ((BitVec.ofNat 16 (c.dataBytesMax / 8)).setWidth 32 <<< 16)

end Sys2Proof.Machine
end

