-- ==== Sys2Proof/Machine/Ops.lean ====
section
/-! DEFINITION. The named operations over memories and registers; recording an error, and the two resets, which are
the only ways out of the error state. -/

namespace Sys2Proof.Machine

/-! ## Memories (10_state.md R33) -/

/-- The byte at index `a`; none when it is UNWRITTEN. -/
def Memory.read : Memory → Nat → Option Byte
  | [], _ => none
  | (k, b) :: m, a => if k = a then some b else Memory.read m a

/-- Write one byte, keeping the indices strictly rising. -/
def Memory.write : Memory → Nat → Byte → Memory
  | [], a, v => [(a, v)]
  | (k, b) :: m, a, v =>
    if a < k then (a, v) :: (k, b) :: m
    else if a = k then (a, v) :: m
    else (k, b) :: Memory.write m a v

/-- `MemRead`: the `n` bytes from index `a` on (00_scope.md R13); none when one of them is UNWRITTEN. -/
def Memory.readBytes (m : Memory) (a : Nat) : Nat → Option (List Byte)
  | 0 => some []
  | n + 1 =>
    match m.read a, Memory.readBytes m (a + 1) n with
    | some b, some bs => some (b :: bs)
    | _, _ => none

/-- `MemWrite`: write bytes from index `a` on (00_scope.md R13). -/
def Memory.writeBytes (m : Memory) (a : Nat) : List Byte → Memory
  | [] => m
  | b :: bs => Memory.writeBytes (m.write a b) (a + 1) bs

/-- The canonical form: strictly rising indices. An unlisted index has no value, so no entry repeats it. -/
abbrev Memory.wf (m : Memory) : Prop := m.Pairwise fun x y => x.1 < y.1

/-- Every written byte lies below the memory's size. -/
abbrev Memory.within (m : Memory) (size : Nat) : Prop := ∀ x ∈ m, x.1 < size

/-! ## Registers (10_state.md R22, R23) -/

/-- The value of a data register. -/
def State.reg (s : State) : Reg → Word
  | .keylen => s.keylen
  | .dlen => s.dlen
  | .opa => s.opa
  | .opb => s.opb
  | .res0 => s.res0
  | .res1 => s.res1
  | .sl => s.sl
  | .sr => s.sr
  | .prev0 => s.prev0
  | .prev1 => s.prev1
  | .din0 => s.din0
  | .din1 => s.din1
  | .dout0 => s.dout0
  | .dout1 => s.dout1

/-- Store a value in a data register. -/
def State.setReg (s : State) (r : Reg) (v : Word) : State :=
  match r with
  | .keylen => { s with keylen := v }
  | .dlen => { s with dlen := v }
  | .opa => { s with opa := v }
  | .opb => { s with opb := v }
  | .res0 => { s with res0 := v }
  | .res1 => { s with res1 := v }
  | .sl => { s with sl := v }
  | .sr => { s with sr := v }
  | .prev0 => { s with prev0 := v }
  | .prev1 => { s with prev1 := v }
  | .din0 => { s with din0 := v }
  | .din1 => { s with din1 := v }
  | .dout0 => { s with dout0 := v }
  | .dout1 => { s with dout1 := v }

/-- The host may write the register (R22): all but RES0, RES1, DOUT0 and DOUT1. -/
def hostWritable : Reg → Bool
  | .keylen => true
  | .dlen => true
  | .opa => true
  | .opb => true
  | .res0 => false
  | .res1 => false
  | .sl => true
  | .sr => true
  | .prev0 => true
  | .prev1 => true
  | .din0 => true
  | .din1 => true
  | .dout0 => false
  | .dout1 => false

/-! ## What a command writes, all at its end (00_scope.md R13) -/

/-- Write RES0. -/
def State.setRes0 (s : State) (v : Word) : State := { s with res0 := v }

/-- Write (RES0, RES1), by position. -/
def State.setRes (s : State) (p : Word × Word) : State := { s with res0 := p.1, res1 := p.2 }

/-- Write the round state (SL, SR). -/
def State.setRound (s : State) (st : Word × Word) : State := { s with sl := st.1, sr := st.2 }

/-- Write the accumulator (PREV0, PREV1). -/
def State.setPrev (s : State) (b : Block) : State := { s with prev0 := b.1, prev1 := b.2 }

/-- Write the output block (DOUT0, DOUT1). -/
def State.setDout (s : State) (b : Block) : State := { s with dout0 := b.1, dout1 := b.2 }

/-- Replace KEYMEM. -/
def State.setKeymem (s : State) (m : Memory) : State := { s with keymem := m }

/-- Replace DATAMEM. -/
def State.setDatamem (s : State) (m : Memory) : State := { s with datamem := m }

/-! ## The host's side (the model's own fields) -/

/-- Answer the host. -/
def State.respond (s : State) (r : Response) : State := { s with response := r }

/-- The inputs still to come. -/
def State.setInputs (s : State) (is : List Input) : State := { s with inputs := is }

/-! ## Errors and resets -/

/-- `raise PreconditionViolation(v)`: ERR and ECODE are written and nothing else (60_exceptions.md R212). There is no
trap: no control moves and nothing is saved (R214). -/
def State.raise (s : State) (v : Violation) : State := { s with err := true, ecode := violationCode v }

/-- Soft reset: every register, ERR and ECODE at their hard-reset value, both memories kept
(70_reset_and_hazards.md R241). With `hardReset` the only return from the error state (60_exceptions.md R213, R215). -/
def State.softReset (s : State) : State :=
  { State.reset with keymem := s.keymem, datamem := s.datamem, inputs := s.inputs, response := s.response }

/-- Hard reset on the platform's reset input (R240): all of WGCORE's state, the memories to UNWRITTEN. The inputs
still to come are not WGCORE's and stay (log entry 8). -/
def State.hardReset (s : State) : State := { State.reset with inputs := s.inputs }

/-! ## The common execution order of commands (60_exceptions.md R211) -/

/-- Step 1: in the error state a command is ignored. (Step 2, an illegal word, is `writeCmd`'s.) -/
def command (s : State) (body : Host.Outcome State Fault Refusal) : Host.Outcome State Fault Refusal :=
  if s.err then .next s else body

/-- Steps 1 and 3: a command that uses the key needs KEYOK = 1. -/
def keyCommand (c : Config) (s : State) (body : Host.Outcome State Fault Refusal) : Host.Outcome State Fault Refusal :=
  command s (if keyOk c s.keylen then body else .next (s.raise .keylenInvalid))

/-- A value read from memory, or the fault UNWRITTEN_READ (10_state.md R33, 60_exceptions.md R216). -/
def needBytes {α : Type} (read : Option α) (body : α → Host.Outcome State Fault Refusal) :
    Host.Outcome State Fault Refusal :=
  match read with
  | none => .fault .unwrittenRead
  | some x => body x

end Sys2Proof.Machine
end

