-- ==== Sys2Proof/Machine/Operands.lean ====
section
/-! DEFINITION. The operand forms of the commands: the immediates of the command word (30_encoding.md rule R81), the
register pairs (10_state.md R24), the key and the data buffer (10_state.md R36, R37). -/

namespace Sys2Proof.Machine

/-- Immediates are unsigned and zero-extended, with no scaling (R81). -/
def immediate {w : Nat} (field : BitVec w) : Nat := field.toNat

/-- The input block in DIN: (DIN0, DIN1) is (clearR, clearL) (R24). -/
def dinBlock (s : State) : Block := (s.din0, s.din1)

/-- The accumulator in PREV (R24). -/
def prevBlock (s : State) : Block := (s.prev0, s.prev1)

/-- The key: the byte string `KEYMEM[0 .. KEYLEN-1]` (R36). -/
def readKey (s : State) : Option (List Byte) := s.keymem.readBytes 0 s.keylen.toNat

/-- Key chunk `k`: the 16 bytes 16k to 16k+15 of KEYMEM, and no others (20_memory.md R58, 43_feistel.md R163). -/
def readChunk (s : State) (k : Nat) : Option RoundKey :=
  match s.keymem.readBytes (16 * k) 16 with
  | none => none
  | some bs => some (chunkOf bs 0)

/-- The buffer: `DATAMEM[0 .. DLEN-1]` (R37). -/
def readData (s : State) : Option (List Byte) := s.datamem.readBytes 0 s.dlen.toNat

end Sys2Proof.Machine
end

