-- ==== Sys2Proof/Machine/Network.lean ====
section
/-! DEFINITION. The default permutation networks: 42_permutation.md rules R141 and R143, step for step, with the
spec's own mark "from general knowledge, not in source" (log entry 2). -/

namespace Sys2Proof.Machine

/-- `PERM_OP(x, y, n, m)`: swaps the bits of x selected by `m << n` with the bits of y selected by m; answers the new
(x, y) (R141). -/
def permOp (x y : Word) (n : Nat) (m : Word) : Word × Word :=
  let t := ((x >>> n) ^^^ y) &&& m
  (x ^^^ (t <<< n), y ^^^ t)

/-- Default PREPARE_NET (R141): five PERM_OP steps, then the rotate-by-29 framing. Each step binds PERM_OP's first
result to the first name. -/
def defaultPrepare (halfR halfL : Word) : Word × Word :=
  let (b, a) := permOp halfL halfR 4 0x0F0F0F0F#32
  let (a, b) := permOp a b 16 0x0000FFFF#32
  let (b, a) := permOp b a 2 0x33333333#32
  let (a, b) := permOp a b 8 0x00FF00FF#32
  let (b, a) := permOp b a 1 0x55555555#32
  (ror32 a 29, ror32 b 29)

/-- Default FINALIZE_NET (R143): the rotate-by-3 framing, then the same micro-steps in reverse order. -/
def defaultFinalize (halfR halfL : Word) : Word × Word :=
  let d := ror32 halfR 3
  let c := ror32 halfL 3
  let (c, d) := permOp c d 1 0x55555555#32
  let (d, c) := permOp d c 8 0x00FF00FF#32
  let (c, d) := permOp c d 2 0x33333333#32
  let (d, c) := permOp d c 16 0x0000FFFF#32
  let (c, d) := permOp c d 4 0x0F0F0F0F#32
  (d, c)

end Sys2Proof.Machine
end

