-- ==== Sys2Proof/Machine/Sbox.lean ====
section
/-! DEFINITION. The default contents of the S-box ROM: 41_substitution.md rule R123, entry for entry, with the spec's
own mark "from general knowledge, not in source" (log entry 2). -/

namespace Sys2Proof.Machine

/-- `SBOX(0, i)`, i = 0..63: FIPS 46-3 S-box S1 (R123). -/
def sboxTable0 : List Word :=
  [0x02080800#32, 0x00080000#32, 0x02000002#32, 0x02080802#32, 0x02000000#32, 0x00080802#32, 0x00080002#32, 0x02000002#32] ++
  [0x00080802#32, 0x02080800#32, 0x02080000#32, 0x00000802#32, 0x02000802#32, 0x02000000#32, 0x00000000#32, 0x00080002#32] ++
  [0x00080000#32, 0x00000002#32, 0x02000800#32, 0x00080800#32, 0x02080802#32, 0x02080000#32, 0x00000802#32, 0x02000800#32] ++
  [0x00000002#32, 0x00000800#32, 0x00080800#32, 0x02080002#32, 0x00000800#32, 0x02000802#32, 0x02080002#32, 0x00000000#32] ++
  [0x00000000#32, 0x02080802#32, 0x02000800#32, 0x00080002#32, 0x02080800#32, 0x00080000#32, 0x00000802#32, 0x02000800#32] ++
  [0x02080002#32, 0x00000800#32, 0x00080800#32, 0x02000002#32, 0x00080802#32, 0x00000002#32, 0x02000002#32, 0x02080000#32] ++
  [0x02080802#32, 0x00080800#32, 0x02080000#32, 0x02000802#32, 0x02000000#32, 0x00000802#32, 0x00080002#32, 0x00000000#32] ++
  [0x00080000#32, 0x02000000#32, 0x02000802#32, 0x02080800#32, 0x00000002#32, 0x02080002#32, 0x00000800#32, 0x00080802#32]

/-- `SBOX(1, i)`, i = 0..63: FIPS 46-3 S-box S2 (R123). -/
def sboxTable1 : List Word :=
  [0x40108010#32, 0x00000000#32, 0x00108000#32, 0x40100000#32, 0x40000010#32, 0x00008010#32, 0x40008000#32, 0x00108000#32] ++
  [0x00008000#32, 0x40100010#32, 0x00000010#32, 0x40008000#32, 0x00100010#32, 0x40108000#32, 0x40100000#32, 0x00000010#32] ++
  [0x00100000#32, 0x40008010#32, 0x40100010#32, 0x00008000#32, 0x00108010#32, 0x40000000#32, 0x00000000#32, 0x00100010#32] ++
  [0x40008010#32, 0x00108010#32, 0x40108000#32, 0x40000010#32, 0x40000000#32, 0x00100000#32, 0x00008010#32, 0x40108010#32] ++
  [0x00100010#32, 0x40108000#32, 0x40008000#32, 0x00108010#32, 0x40108010#32, 0x00100010#32, 0x40000010#32, 0x00000000#32] ++
  [0x40000000#32, 0x00008010#32, 0x00100000#32, 0x40100010#32, 0x00008000#32, 0x40000000#32, 0x00108010#32, 0x40008010#32] ++
  [0x40108000#32, 0x00008000#32, 0x00000000#32, 0x40000010#32, 0x00000010#32, 0x40108010#32, 0x00108000#32, 0x40100000#32] ++
  [0x40100010#32, 0x00100000#32, 0x00008010#32, 0x40008000#32, 0x40008010#32, 0x00000010#32, 0x40100000#32, 0x00108000#32]

/-- `SBOX(2, i)`, i = 0..63: FIPS 46-3 S-box S3 (R123). -/
def sboxTable2 : List Word :=
  [0x04000001#32, 0x04040100#32, 0x00000100#32, 0x04000101#32, 0x00040001#32, 0x04000000#32, 0x04000101#32, 0x00040100#32] ++
  [0x04000100#32, 0x00040000#32, 0x04040000#32, 0x00000001#32, 0x04040101#32, 0x00000101#32, 0x00000001#32, 0x04040001#32] ++
  [0x00000000#32, 0x00040001#32, 0x04040100#32, 0x00000100#32, 0x00000101#32, 0x04040101#32, 0x00040000#32, 0x04000001#32] ++
  [0x04040001#32, 0x04000100#32, 0x00040101#32, 0x04040000#32, 0x00040100#32, 0x00000000#32, 0x04000000#32, 0x00040101#32] ++
  [0x04040100#32, 0x00000100#32, 0x00000001#32, 0x00040000#32, 0x00000101#32, 0x00040001#32, 0x04040000#32, 0x04000101#32] ++
  [0x00000000#32, 0x04040100#32, 0x00040100#32, 0x04040001#32, 0x00040001#32, 0x04000000#32, 0x04040101#32, 0x00000001#32] ++
  [0x00040101#32, 0x04000001#32, 0x04000000#32, 0x04040101#32, 0x00040000#32, 0x04000100#32, 0x04000101#32, 0x00040100#32] ++
  [0x04000100#32, 0x00000000#32, 0x04040001#32, 0x00000101#32, 0x04000001#32, 0x00040101#32, 0x00000100#32, 0x04040000#32]

/-- `SBOX(3, i)`, i = 0..63: FIPS 46-3 S-box S4 (R123). -/
def sboxTable3 : List Word :=
  [0x00401008#32, 0x10001000#32, 0x00000008#32, 0x10401008#32, 0x00000000#32, 0x10400000#32, 0x10001008#32, 0x00400008#32] ++
  [0x10401000#32, 0x10000008#32, 0x10000000#32, 0x00001008#32, 0x10000008#32, 0x00401008#32, 0x00400000#32, 0x10000000#32] ++
  [0x10400008#32, 0x00401000#32, 0x00001000#32, 0x00000008#32, 0x00401000#32, 0x10001008#32, 0x10400000#32, 0x00001000#32] ++
  [0x00001008#32, 0x00000000#32, 0x00400008#32, 0x10401000#32, 0x10001000#32, 0x10400008#32, 0x10401008#32, 0x00400000#32] ++
  [0x10400008#32, 0x00001008#32, 0x00400000#32, 0x10000008#32, 0x00401000#32, 0x10001000#32, 0x00000008#32, 0x10400000#32] ++
  [0x10001008#32, 0x00000000#32, 0x00001000#32, 0x00400008#32, 0x00000000#32, 0x10400008#32, 0x10401000#32, 0x00001000#32] ++
  [0x10000000#32, 0x10401008#32, 0x00401008#32, 0x00400000#32, 0x10401008#32, 0x00000008#32, 0x10001000#32, 0x00401008#32] ++
  [0x00400008#32, 0x00401000#32, 0x10400000#32, 0x10001008#32, 0x00001008#32, 0x10000000#32, 0x10000008#32, 0x10401000#32]

/-- `SBOX(4, i)`, i = 0..63: FIPS 46-3 S-box S5 (R123). -/
def sboxTable4 : List Word :=
  [0x08000000#32, 0x00010000#32, 0x00000400#32, 0x08010420#32, 0x08010020#32, 0x08000400#32, 0x00010420#32, 0x08010000#32] ++
  [0x00010000#32, 0x00000020#32, 0x08000020#32, 0x00010400#32, 0x08000420#32, 0x08010020#32, 0x08010400#32, 0x00000000#32] ++
  [0x00010400#32, 0x08000000#32, 0x00010020#32, 0x00000420#32, 0x08000400#32, 0x00010420#32, 0x00000000#32, 0x08000020#32] ++
  [0x00000020#32, 0x08000420#32, 0x08010420#32, 0x00010020#32, 0x08010000#32, 0x00000400#32, 0x00000420#32, 0x08010400#32] ++
  [0x08010400#32, 0x08000420#32, 0x00010020#32, 0x08010000#32, 0x00010000#32, 0x00000020#32, 0x08000020#32, 0x08000400#32] ++
  [0x08000000#32, 0x00010400#32, 0x08010420#32, 0x00000000#32, 0x00010420#32, 0x08000000#32, 0x00000400#32, 0x00010020#32] ++
  [0x08000420#32, 0x00000400#32, 0x00000000#32, 0x08010420#32, 0x08010020#32, 0x08010400#32, 0x00000420#32, 0x00010000#32] ++
  [0x00010400#32, 0x08010020#32, 0x08000400#32, 0x00000420#32, 0x00000020#32, 0x00010420#32, 0x08010000#32, 0x08000020#32]

/-- `SBOX(5, i)`, i = 0..63: FIPS 46-3 S-box S6 (R123). -/
def sboxTable5 : List Word :=
  [0x80000040#32, 0x00200040#32, 0x00000000#32, 0x80202000#32, 0x00200040#32, 0x00002000#32, 0x80002040#32, 0x00200000#32] ++
  [0x00002040#32, 0x80202040#32, 0x00202000#32, 0x80000000#32, 0x80002000#32, 0x80000040#32, 0x80200000#32, 0x00202040#32] ++
  [0x00200000#32, 0x80002040#32, 0x80200040#32, 0x00000000#32, 0x00002000#32, 0x00000040#32, 0x80202000#32, 0x80200040#32] ++
  [0x80202040#32, 0x80200000#32, 0x80000000#32, 0x00002040#32, 0x00000040#32, 0x00202000#32, 0x00202040#32, 0x80002000#32] ++
  [0x00002040#32, 0x80000000#32, 0x80002000#32, 0x00202040#32, 0x80202000#32, 0x00200040#32, 0x00000000#32, 0x80002000#32] ++
  [0x80000000#32, 0x00002000#32, 0x80200040#32, 0x00200000#32, 0x00200040#32, 0x80202040#32, 0x00202000#32, 0x00000040#32] ++
  [0x80202040#32, 0x00202000#32, 0x00200000#32, 0x80002040#32, 0x80000040#32, 0x80200000#32, 0x00202040#32, 0x00000000#32] ++
  [0x00002000#32, 0x80000040#32, 0x80002040#32, 0x80202000#32, 0x80200000#32, 0x00002040#32, 0x00000040#32, 0x80200040#32]

/-- `SBOX(6, i)`, i = 0..63: FIPS 46-3 S-box S7 (R123). -/
def sboxTable6 : List Word :=
  [0x00004000#32, 0x00000200#32, 0x01000200#32, 0x01000004#32, 0x01004204#32, 0x00004004#32, 0x00004200#32, 0x00000000#32] ++
  [0x01000000#32, 0x01000204#32, 0x00000204#32, 0x01004000#32, 0x00000004#32, 0x01004200#32, 0x01004000#32, 0x00000204#32] ++
  [0x01000204#32, 0x00004000#32, 0x00004004#32, 0x01004204#32, 0x00000000#32, 0x01000200#32, 0x01000004#32, 0x00004200#32] ++
  [0x01004004#32, 0x00004204#32, 0x01004200#32, 0x00000004#32, 0x00004204#32, 0x01004004#32, 0x00000200#32, 0x01000000#32] ++
  [0x00004204#32, 0x01004000#32, 0x01004004#32, 0x00000204#32, 0x00004000#32, 0x00000200#32, 0x01000000#32, 0x01004004#32] ++
  [0x01000204#32, 0x00004204#32, 0x00004200#32, 0x00000000#32, 0x00000200#32, 0x01000004#32, 0x00000004#32, 0x01000200#32] ++
  [0x00000000#32, 0x01000204#32, 0x01000200#32, 0x00004200#32, 0x00000204#32, 0x00004000#32, 0x01004204#32, 0x01000000#32] ++
  [0x01004200#32, 0x00000004#32, 0x00004004#32, 0x01004204#32, 0x01000004#32, 0x01004200#32, 0x01004000#32, 0x00004004#32]

/-- `SBOX(7, i)`, i = 0..63: FIPS 46-3 S-box S8 (R123). -/
def sboxTable7 : List Word :=
  [0x20800080#32, 0x20820000#32, 0x00020080#32, 0x00000000#32, 0x20020000#32, 0x00800080#32, 0x20800000#32, 0x20820080#32] ++
  [0x00000080#32, 0x20000000#32, 0x00820000#32, 0x00020080#32, 0x00820080#32, 0x20020080#32, 0x20000080#32, 0x20800000#32] ++
  [0x00020000#32, 0x00820080#32, 0x00800080#32, 0x20020000#32, 0x20820080#32, 0x20000080#32, 0x00000000#32, 0x00820000#32] ++
  [0x20000000#32, 0x00800000#32, 0x20020080#32, 0x20800080#32, 0x00800000#32, 0x00020000#32, 0x20820000#32, 0x00000080#32] ++
  [0x00800000#32, 0x00020000#32, 0x20000080#32, 0x20820080#32, 0x00020080#32, 0x20000000#32, 0x00000000#32, 0x00820000#32] ++
  [0x20800080#32, 0x20020080#32, 0x20020000#32, 0x00800080#32, 0x20820000#32, 0x00000080#32, 0x00800080#32, 0x20020000#32] ++
  [0x20820080#32, 0x00800000#32, 0x20800000#32, 0x20000080#32, 0x00820000#32, 0x00020080#32, 0x20020080#32, 0x20800000#32] ++
  [0x00000080#32, 0x20820000#32, 0x00820080#32, 0x00000000#32, 0x20000000#32, 0x20800080#32, 0x00020000#32, 0x00820080#32]

/-- The table of number `t`. -/
def sboxTable (t : Fin 8) : List Word :=
  match t with
  | 0 => sboxTable0
  | 1 => sboxTable1
  | 2 => sboxTable2
  | 3 => sboxTable3
  | 4 => sboxTable4
  | 5 => sboxTable5
  | 6 => sboxTable6
  | 7 => sboxTable7

/-- The default SBOX as a function of table number and 6-bit index (R122, R123). Every index is in the table. -/
def defaultSbox (t : Fin 8) (i : BitVec 6) : Word := (sboxTable t).getD i.toNat 0#32

end Sys2Proof.Machine
end

