-- ==== Sys2Proof/Machine/Parameters.lean ====
section
/-! DEFINITION. The configuration the machine fixes: the spec's default of every parameter of 00_scope.md rule R7
(log entry 2). -/

namespace Sys2Proof.Machine

/-- The default configuration (R7): 128 key bytes, 64 data bytes, and the default tables and networks. -/
def wgcore : Config where
  keyBytesMax := 128
  dataBytesMax := 64
  sbox := defaultSbox
  prepareNet := defaultPrepare
  finalizeNet := defaultFinalize

end Sys2Proof.Machine
end

