-- ==== Sys2Proof/Machine/BitOps.lean ====
section
/-! DEFINITION. The BitOps commands NOP, ROR32 and EXTRACT: 40_bitops.md rules R103 to R105. -/

namespace Sys2Proof.Machine

/-- NOP: no effect (R103). -/
def execNop (s : State) : Host.Outcome State Fault Refusal := command s (.next s)

/-- ROR32: RES0 <- ror32(OPA, n) (R104). -/
def execRor32 (n : BitVec 5) (s : State) : Host.Outcome State Fault Refusal :=
  command s (.next (s.setRes0 (ror32 s.opa (immediate n))))

/-- EXTRACT: RES0 <- extractBits(OPA, lsb, width) (R105). A width above 32 is no command and never decoded (R85); log
entry 9. -/
def execExtract (lsb : BitVec 5) (width : BitVec 6) (s : State) : Host.Outcome State Fault Refusal :=
  command s (.next (s.setRes0 (extractBits s.opa (immediate lsb) (immediate width))))

end Sys2Proof.Machine
end

