-- ==== Sys2Proof/Machine/Chaining.lean ====
section
/-! DEFINITION. The chaining commands CBCINIT, CBCBLK and CBCBUF: 44_chaining.md rules R191 to R193. -/

namespace Sys2Proof.Machine

/-- CBCINIT: PREV <- 0; no key is needed (R191). -/
def execCbcinit (s : State) : Host.Outcome State Fault Refusal := command s (.next (s.setPrev (0#32, 0#32)))

/-- CBCBLK: encrypt DIN XOR PREV; the result goes to DOUT and PREV, the round state to (SL, SR) (R192). -/
def execCbcblk (s : State) : Host.Outcome State Fault Refusal :=
  keyCommand wgcore s (needBytes (readKey s) fun key =>
    let st := roundState wgcore (roundKeys key) (xorBlock (dinBlock s) (prevBlock s))
    let out := finishBlock wgcore st
    .next (((s.setDout out).setPrev out).setRound st))

/-- CBCBUF: the chained encryption of `DATAMEM[0 .. DLEN-1]` in place, from a zero accumulator; PREV is the last
ciphertext block and (SL, SR) the last round state, or PREV is 0 when DLEN = 0 (R193). Key and data are read, and DLEN
checked, before anything is written. -/
def execCbcbuf (s : State) : Host.Outcome State Fault Refusal :=
  keyCommand wgcore s
    (if dlenOk wgcore s.dlen then
      needBytes (readKey s) fun key => needBytes (readData s) fun plain =>
        let cipher := encryptChained wgcore plain key
        let s' := s.setDatamem (s.datamem.writeBytes 0 cipher)
        match (chainStates wgcore (roundKeys key) (0#32, 0#32) (blocksOf plain)).getLast? with
        | none => .next (s'.setPrev (0#32, 0#32))
        | some st => .next ((s'.setPrev (blockOf cipher (s.dlen.toNat - 8))).setRound st)
    else .next (s.raise .dlenInvalid))

end Sys2Proof.Machine
end

