-- ==== Sys2Proof/Machine/Feistel.lean ====
section
/-! DEFINITION. The Feistel commands ROUND, BSTART, BFINISH and ENCBLK: 43_feistel.md rules R163 to R166. -/

namespace Sys2Proof.Machine

/-- ROUND: one round on (SL, SR) with key chunk k. KEYLEN is checked first, then k (R163; 60_exceptions.md R211 steps 3
and 5); only the chunk's 16 bytes are read. -/
def execRound (k : BitVec 8) (s : State) : Host.Outcome State Fault Refusal :=
  keyCommand wgcore s
    (if immediate k < roundCount s.keylen then
      needBytes (readChunk s (immediate k)) fun key => .next (s.setRound (roundStep wgcore key (s.sl, s.sr)))
    else .next (s.raise .roundIndex))

/-- BSTART: (SL, SR) <- prepare(DIN0, DIN1); no key is needed (R164). -/
def execBstart (s : State) : Host.Outcome State Fault Refusal :=
  command s (.next (s.setRound (wgcore.prepareNet s.din0 s.din1)))

/-- BFINISH: (DOUT0, DOUT1) <- finalize(SR, SL); no key is needed (R165). -/
def execBfinish (s : State) : Host.Outcome State Fault Refusal :=
  command s (.next (s.setDout (wgcore.finalizeNet s.sr s.sl)))

/-- ENCBLK: DOUT is the encrypted DIN, and (SL, SR) the round state after the last round (R166). -/
def execEncblk (s : State) : Host.Outcome State Fault Refusal :=
  keyCommand wgcore s (needBytes (readKey s) fun key =>
    let st := roundState wgcore (roundKeys key) (dinBlock s)
    .next ((s.setDout (finishBlock wgcore st)).setRound st))

end Sys2Proof.Machine
end

