-- ==== Sys2Proof/Machine/Permutation.lean ====
section
/-! DEFINITION. The commands PREPARE and FINALIZE: 42_permutation.md rules R145 and R146. -/

namespace Sys2Proof.Machine

/-- PREPARE: (RES0, RES1) <- prepare(OPA, OPB) (R145). -/
def execPrepare (s : State) : Host.Outcome State Fault Refusal :=
  command s (.next (s.setRes (wgcore.prepareNet s.opa s.opb)))

/-- FINALIZE: (RES0, RES1) <- finalize(OPA, OPB) (R146). -/
def execFinalize (s : State) : Host.Outcome State Fault Refusal :=
  command s (.next (s.setRes (wgcore.finalizeNet s.opa s.opb)))

end Sys2Proof.Machine
end

