-- ==== Sys2Proof/Machine/Substitution.lean ====
section
/-! DEFINITION. The command MIX: 41_substitution.md rule R125. -/

namespace Sys2Proof.Machine

/-- MIX: RES0 <- mix(OPA, OPB) (R125). -/
def execMix (s : State) : Host.Outcome State Fault Refusal :=
  command s (.next (s.setRes0 (mix wgcore s.opa s.opb)))

end Sys2Proof.Machine
end

