-- ==== Sys2Proof/Machine/Dispatch.lean ====
section
/-! DEFINITION. The execution of a legal command word: one arm per constructor of Instr (30_encoding.md rule R83). -/

namespace Sys2Proof.Machine

/-- The command `i`, executed atomically within its CMD write (10_state.md R20; 60_exceptions.md R211). -/
def exec (i : Instr) (s : State) : Host.Outcome State Fault Refusal :=
  match i with
  | .nop => Sys2Proof.Machine.execNop s
  | .ror32 n => Sys2Proof.Machine.execRor32 n s
  | .extract lsb width => Sys2Proof.Machine.execExtract lsb width s
  | .mix => Sys2Proof.Machine.execMix s
  | .prepare => Sys2Proof.Machine.execPrepare s
  | .finalize => Sys2Proof.Machine.execFinalize s
  | .round k => Sys2Proof.Machine.execRound k s
  | .bstart => Sys2Proof.Machine.execBstart s
  | .bfinish => Sys2Proof.Machine.execBfinish s
  | .encblk => Sys2Proof.Machine.execEncblk s
  | .cbcinit => Sys2Proof.Machine.execCbcinit s
  | .cbcblk => Sys2Proof.Machine.execCbcblk s
  | .cbcbuf => Sys2Proof.Machine.execCbcbuf s

end Sys2Proof.Machine
end

