-- ==== Sys2Proof/Machine/Bus.lean ====
section
/-! DEFINITION. The host's bus: the address map and the admitted accesses (20_memory.md rules R50 to R57), the register
map (10_state.md R22 to R31), the CMD write that executes a command, and what one input from outside does. -/

namespace Sys2Proof.Machine

/-- The registers at the word offsets of REGS (10_state.md R22, R26 to R31). -/
inductive BusReg where
  | id
  | config
  | status
  | ctrl
  | cmd
  | data (r : Reg)
  /-- 0x01C and 0x050 to 0x0FC: read 0, ignore writes (R31) -/
  | reserved
  deriving DecidableEq, Repr

/-- The register at an aligned offset below 0x100. -/
def busRegAt (a : Nat) : BusReg :=
  match a with
  | 0x000 => .id
  | 0x004 => .config
  | 0x008 => .status
  | 0x00C => .ctrl
  | 0x010 => .cmd
  | 0x014 => .data .keylen
  | 0x018 => .data .dlen
  | 0x020 => .data .opa
  | 0x024 => .data .opb
  | 0x028 => .data .res0
  | 0x02C => .data .res1
  | 0x030 => .data .sl
  | 0x034 => .data .sr
  | 0x038 => .data .prev0
  | 0x03C => .data .prev1
  | 0x040 => .data .din0
  | 0x044 => .data .din1
  | 0x048 => .data .dout0
  | 0x04C => .data .dout1
  | _ => .reserved

/-- What an admitted access reaches: a register, or the byte index of a memory it starts at. -/
inductive Target where
  | reg (r : BusReg)
  | key (j : Nat)
  | data (j : Nat)
  deriving DecidableEq, Repr

/-- The access shapes of the memory windows: a byte anywhere, a word at a multiple of 4 (R52). -/
def windowShape (n a : Nat) : Bool := decide (n = 1) || (decide (n = 4) && decide (a % 4 = 0))

/-- What an access of `n` bytes at offset `o` reaches (R50 to R53); none is a bus error. -/
def target (c : Config) (n : Nat) (o : Offset) : Option Target :=
  let a := o.toNat
  if a < 0x100 then
    if n = 4 ∧ a % 4 = 0 then some (.reg (busRegAt a)) else none
  else if a < 0x500 then
    if windowShape n a ∧ a - 0x100 + n ≤ c.keyBytesMax then some (.key (a - 0x100)) else none
  else if a < 0x800 then none
  else if windowShape n a ∧ a - 0x800 + n ≤ c.dataBytesMax then some (.data (a - 0x800)) else none

/-- The width of an access in bytes. -/
def accessWidth : Access → Nat
  | .readByte _ => 1
  | .readHalf _ => 2
  | .readWord _ => 4
  | .writeByte _ _ => 1
  | .writeHalf _ _ => 2
  | .writeWord _ _ => 4

/-- The offset of an access. -/
def accessOffset : Access → Offset
  | .readByte o => o
  | .readHalf o => o
  | .readWord o => o
  | .writeByte o _ => o
  | .writeHalf o _ => o
  | .writeWord o _ => o

/-- The bus admits the access: 20_memory.md R51 to R53. -/
def admitted (c : Config) (a : Access) : Bool := (target c (accessWidth a) (accessOffset a)).isSome

/-- What a register reads (10_state.md R22, R23, R26 to R31): CTRL, CMD and the reserved offsets read 0. -/
def readReg (c : Config) (s : State) : BusReg → Word
  | .id => idWord
  | .config => configWord c
  | .status => statusWord c s
  | .ctrl => 0#32
  | .cmd => 0#32
  | .data r => s.reg r
  | .reserved => 0#32

/-- A CMD write (60_exceptions.md R211): in the error state nothing happens; an illegal word raises ILLEGAL_COMMAND
(30_encoding.md R85); a command is executed. -/
def writeCmd (w : Word) (s : State) : Host.Outcome State Fault Refusal :=
  match decode w with
  | .error _ => command s (.next (s.raise .illegalCommand))
  | .ok i => exec i s

/-- A CTRL write: bit 0 performs a soft reset, every other bit is ignored (10_state.md R29). -/
def writeCtrl (w : Word) (s : State) : State := if w.getLsbD 0 then s.softReset else s

/-- A register write (10_state.md R23, R26 to R31): writes to read-only registers and reserved offsets are ignored. -/
def writeReg (r : BusReg) (w : Word) (s : State) : Host.Outcome State Fault Refusal :=
  match r with
  | .id => .next s
  | .config => .next s
  | .status => .next s
  | .ctrl => .next (writeCtrl w s)
  | .cmd => writeCmd w s
  | .data r => .next (if hostWritable r then s.setReg r w else s)
  | .reserved => .next s

/-- The data of a memory read: a byte, or a little-endian word (20_memory.md R54). -/
def readResponse (n : Nat) (bs : List Byte) : Response :=
  if n = 1 then .byte (byteAt bs 0) else .word (le32 bs 0)

/-- A host read of `n` bytes: it answers the host and changes nothing of WGCORE (20_memory.md R55, R57). -/
def hostRead (c : Config) (n : Nat) (o : Offset) (s : State) : Host.Outcome State Fault Refusal :=
  match target c n o with
  | none => .fault .busError
  | some (.reg r) => .next (s.respond (.word (readReg c s r)))
  | some (.key j) => needBytes (s.keymem.readBytes j n) fun bs => .next (s.respond (readResponse n bs))
  | some (.data j) => needBytes (s.datamem.readBytes j n) fun bs => .next (s.respond (readResponse n bs))

/-- A host write of the low `n` bytes of `w` (20_memory.md R54, R55, R57). -/
def hostWrite (c : Config) (n : Nat) (o : Offset) (w : Word) (s : State) : Host.Outcome State Fault Refusal :=
  match target c n o with
  | none => .fault .busError
  | some (.reg r) => writeReg r w (s.respond .done)
  | some (.key j) => .next ((s.respond .done).setKeymem (s.keymem.writeBytes j ((packLe32 w).take n)))
  | some (.data j) => .next ((s.respond .done).setDatamem (s.datamem.writeBytes j ((packLe32 w).take n)))

/-- One host access (20_memory.md R56: one event). -/
def hostAccess (c : Config) (a : Access) (s : State) : Host.Outcome State Fault Refusal :=
  match a with
  | .readByte o => hostRead c 1 o s
  | .readHalf o => hostRead c 2 o s
  | .readWord o => hostRead c 4 o s
  | .writeByte o v => hostWrite c 1 o (v.setWidth 32) s
  | .writeHalf o v => hostWrite c 2 o (v.setWidth 32) s
  | .writeWord o v => hostWrite c 4 o v s

/-- One input from outside: the host's access, the platform's hard reset, or a second host's access, which is refused
(60_exceptions.md R225). -/
def applyInput (i : Input) (s : State) : Host.Outcome State Fault Refusal :=
  match i with
  | .access a => hostAccess wgcore a s
  | .hardReset => .next s.hardReset
  | .otherHost _ => .refused .secondHost

/-- The first pending input, applied to the state without it; with none pending nothing happens (log entry 1). -/
def takeInput (s : State) : Host.Outcome State Fault Refusal :=
  match s.inputs with
  | [] => .next s
  | i :: rest => applyInput i (s.setInputs rest)

/-- The offset of CMD (10_state.md R30). -/
def cmdOffset : Offset := 0x010#12

/-- The host's write of a command word to CMD. -/
def commandInput (w : Word) : Input := .access (.writeWord cmdOffset w)

end Sys2Proof.Machine
end

