-- ==== Sys2Proof/Machine/Step.lean ====
section
/-! DEFINITION. One step: the next input from outside takes effect (20_memory.md rule R61: one at a time, in the host's
program order). -/

namespace Sys2Proof.Machine

/-- One step of the machine. -/
def step (s : State) : Host.Outcome State Fault Refusal := takeInput s

/-- The same state with the host about to write the command word of an opcode-table row's bits to CMD: the next step
decodes and executes exactly it (log entry 4). -/
def State.withFetchWord (s : State) (nbits w : Nat) : State :=
  s.setInputs (commandInput (Sys2Proof.commandWordOf nbits w) :: s.inputs)

end Sys2Proof.Machine
end

