-- ==== Sys2Proof/Machine/BitMaps.lean ====
section
/-! DEFINITION. The default permutation networks as explicit bit maps: 42_permutation.md rules R142 and R144. "A model
may define the default prepare by this map or by rule R141": the machine takes R141 (Machine/Network.lean), and the
maps stand here for the statements that the two agree. -/

namespace Sys2Proof.Machine

/-- A source bit of a map: bit `bit` of the first argument (`in0`, halfR) or of the second (`in1`, halfL). -/
structure SourceBit where
  second : Bool
  bit : Nat
  deriving DecidableEq, Repr

/-- Bit `b` of `in0`. -/
def in0 (b : Nat) : SourceBit := { second := false, bit := b }

/-- Bit `b` of `in1`. -/
def in1 (b : Nat) : SourceBit := { second := true, bit := b }

/-- The value of a source bit. -/
def sourceBit (x0 x1 : Word) (s : SourceBit) : Bool := (if s.second then x1 else x0).getLsbD s.bit

/-- The bit of output position `i`, an output listed from bit 31 down to bit 0 as the spec lists it. -/
def mapBit (outputs : List SourceBit) (x0 x1 : Word) (i : Nat) : Bool :=
  match outputs[31 - i]? with
  | some s => sourceBit x0 x1 s
  | none => false

/-- out0 of the default `prepare`, bits 31 to 0 (R142). -/
def prepareMap0 : List SourceBit :=
  [in0 25, in1 1, in1 9, in1 17, in1 25, in0 3, in0 11, in0 19] ++
  [in0 27, in1 3, in1 11, in1 19, in1 27, in0 5, in0 13, in0 21] ++
  [in0 29, in1 5, in1 13, in1 21, in1 29, in0 7, in0 15, in0 23] ++
  [in0 31, in1 7, in1 15, in1 23, in1 31, in0 1, in0 9, in0 17]

/-- out1 of the default `prepare`, bits 31 to 0 (R142). -/
def prepareMap1 : List SourceBit :=
  [in0 24, in1 0, in1 8, in1 16, in1 24, in0 2, in0 10, in0 18] ++
  [in0 26, in1 2, in1 10, in1 18, in1 26, in0 4, in0 12, in0 20] ++
  [in0 28, in1 4, in1 12, in1 20, in1 28, in0 6, in0 14, in0 22] ++
  [in0 30, in1 6, in1 14, in1 22, in1 30, in0 0, in0 8, in0 16]

/-- out0 of the default `finalize`, bits 31 to 0 (R144). -/
def finalizeMap0 : List SourceBit :=
  [in0 7, in1 7, in0 15, in1 15, in0 23, in1 23, in0 31, in1 31] ++
  [in0 8, in1 8, in0 16, in1 16, in0 24, in1 24, in0 0, in1 0] ++
  [in0 9, in1 9, in0 17, in1 17, in0 25, in1 25, in0 1, in1 1] ++
  [in0 10, in1 10, in0 18, in1 18, in0 26, in1 26, in0 2, in1 2]

/-- out1 of the default `finalize`, bits 31 to 0 (R144). -/
def finalizeMap1 : List SourceBit :=
  [in0 3, in1 3, in0 11, in1 11, in0 19, in1 19, in0 27, in1 27] ++
  [in0 4, in1 4, in0 12, in1 12, in0 20, in1 20, in0 28, in1 28] ++
  [in0 5, in1 5, in0 13, in1 13, in0 21, in1 21, in0 29, in1 29] ++
  [in0 6, in1 6, in0 14, in1 14, in0 22, in1 22, in0 30, in1 30]

end Sys2Proof.Machine
end

