-- ==== Sys2Proof/Machine/HostSide.lean ====
section
/-! DEFINITION. What the host does around WGCORE, as plain functions; none of it is part of the machine's step. Host
statements and pseudo-instructions (30_encoding.md rules R88 and R89), the boot sequence (70_reset_and_hazards.md
R242), the assembler (R87), and the host software that
60_exceptions.md gives for completeness: `buildPlaintext` (R230), `extractCode` (R231), the command surface (R232).
Conventions the spec leaves open are in log entries 11, 12 and 13. -/

namespace Sys2Proof.HostSide

open Sys2Proof.Machine

/-! ## Host statements (R88) -/

/-- The bus offset of a data register (10_state.md R22). -/
def regOffset : Reg → Offset
  | .keylen => 0x014#12
  | .dlen => 0x018#12
  | .opa => 0x020#12
  | .opb => 0x024#12
  | .res0 => 0x028#12
  | .res1 => 0x02C#12
  | .sl => 0x030#12
  | .sr => 0x034#12
  | .prev0 => 0x038#12
  | .prev1 => 0x03C#12
  | .din0 => 0x040#12
  | .din1 => 0x044#12
  | .dout0 => 0x048#12
  | .dout1 => 0x04C#12

/-- The bus offset of ID (10_state.md R26). -/
def idOffset : Offset := 0x000#12

/-- The bus offset of CONFIG (R27). -/
def configOffset : Offset := 0x004#12

/-- The bus offset of STATUS (R28). -/
def statusOffset : Offset := 0x008#12

/-- The bus offset of CTRL (R29). -/
def ctrlOffset : Offset := 0x00C#12

/-- `wr REG, v` for the register at an offset. -/
def wrAt (o : Offset) (v : Word) : Input := .access (.writeWord o v)

/-- `rd REG` for the register at an offset. -/
def rdAt (o : Offset) : Input := .access (.readWord o)

/-- `wr REG, v` for a data register. -/
def wr (r : Reg) (v : Word) : Input := wrAt (regOffset r) v

/-- `rd REG` for a data register. -/
def rd (r : Reg) : Input := rdAt (regOffset r)

/-- `wrk o, v`: a word to KEYMEM offset o, a multiple of 4. DESIGN CHOICE, log entry 13, here and in the next three: for
an o past the window, on which the rule is silent, the bus offset is the window's base plus o modulo 2^12. -/
def wrk (o : Nat) (v : Word) : Input := .access (.writeWord (BitVec.ofNat 12 (0x100 + o)) v)

/-- `wrkb o, v`: a byte to KEYMEM offset o (past the window: log entry 13). -/
def wrkb (o : Nat) (v : Byte) : Input := .access (.writeByte (BitVec.ofNat 12 (0x100 + o)) v)

/-- `wrd o, v`: a word to DATAMEM offset o, a multiple of 4 (past the window: log entry 13). -/
def wrd (o : Nat) (v : Word) : Input := .access (.writeWord (BitVec.ofNat 12 (0x800 + o)) v)

/-- `wrdb o, v`: a byte to DATAMEM offset o (past the window: log entry 13). -/
def wrdb (o : Nat) (v : Byte) : Input := .access (.writeByte (BitVec.ofNat 12 (0x800 + o)) v)

/-- A command mnemonic: the write of its word to CMD. -/
def issue (i : Instr) : Input := commandInput (encode i)

/-! ## Pseudo-instructions (R89) -/

/-- `setkey b` (the length a multiple of 4, as R89 asks; any other length, or one of 2^32 and more: log entry 13): the
key as words, then its length. -/
def setkey (b : List Byte) : List Input :=
  (List.range (b.length / 4)).map (fun j => wrk (4 * j) (le32 b (4 * j))) ++ [wr .keylen (BitVec.ofNat 32 b.length)]

/-- `ldblk b[0..7]` (any other number of bytes: log entry 13). -/
def ldblk (b : List Byte) : List Input := [wr .din0 (le32 b 0), wr .din1 (le32 b 4)]

/-- The commands of `encrypt` for `n` rounds: bstart, round 0 to round n-1, bfinish. DESIGN CHOICE, log entry 13: for n
above 256, possible only with KEYOK = 0, R81 has no word for a round index of 256 and up and R89 does not say how
`encrypt` then expands; the index is cut to its low 8 bits. -/
def encryptCommands (n : Nat) : List Instr :=
  .bstart :: (List.range n).map (fun k => Instr.round (BitVec.ofNat 8 k)) ++ [.bfinish]

/-- `encrypt` with KEYLEN / 16 = n (n above 256: log entry 13). -/
def encrypt (n : Nat) : List Input := (encryptCommands n).map issue

/-- `li2 a, b`. -/
def li2 (a b : Word) : List Input := [wr .opa a, wr .opb b]

/-- A buffer (the length a multiple of 4; any other: log entry 13) into DATAMEM from offset 0 on, as words. -/
def setdata (b : List Byte) : List Input := (List.range (b.length / 4)).map fun j => wrd (4 * j) (le32 b (4 * j))

/-- The boot sequence of 70_reset_and_hazards.md R242 for a key and a buffer: identify, load the key, look at STATUS,
load the data, encrypt, look at STATUS, and read the ciphertext back. DESIGN CHOICE, log entry 13: the memories are
written and read by words, where R242 does not say by which accesses. -/
def bootProgram (key data : List Byte) : List Input :=
  [rdAt idOffset, rdAt configOffset] ++ setkey key ++ [rdAt statusOffset] ++ setdata data ++
    [wr .dlen (BitVec.ofNat 32 data.length), issue .cbcbuf, rdAt statusOffset] ++
    (List.range (data.length / 4)).map fun j => rdAt (BitVec.ofNat 12 (0x800 + 4 * j))

/-- A chain driven by CBCBLK: `cbcinit`, then `ldblk P_i; cbcblk` for each block (44_chaining.md R194). -/
def chainProgram (blocks : List Block) : List Input :=
  issue .cbcinit :: (blocks.map fun p => ldblk (blockBytes p) ++ [issue .cbcblk]).flatten

/-! ## Text numerals -/

/-- The value of a digit character, if it is below the base; both letter cases are read. -/
def digitValue (base : Nat) (ch : Char) : Option Nat :=
  let v :=
    if '0' ≤ ch ∧ ch ≤ '9' then ch.toNat - '0'.toNat
    else if 'a' ≤ ch ∧ ch ≤ 'f' then ch.toNat - 'a'.toNat + 10
    else if 'A' ≤ ch ∧ ch ≤ 'F' then ch.toNat - 'A'.toNat + 10
    else base
  if v < base then some v else none

/-- The digits of a text, in order; none when one is no digit. -/
def digitsOf (base : Nat) : List Char → Option (List Nat)
  | [] => some []
  | ch :: cs =>
    match digitValue base ch, digitsOf base cs with
    | some d, some ds => some (d :: ds)
    | _, _ => none

/-- The number a non-empty text of digits stands for. -/
def numeral (base : Nat) (text : List Char) : Option Nat :=
  match text, digitsOf base text with
  | [], _ => none
  | _, none => none
  | _, some ds => some (ds.foldl (fun n d => n * base + d) 0)

/-- A hexadecimal numeral with an optional `0x` before it (R231). -/
def hexNumeral : List Char → Option Nat
  | '0' :: 'x' :: cs => numeral 16 cs
  | cs => numeral 16 cs

/-- An assembler number: decimal, or hexadecimal with a `0x` before it (R87). -/
def asmNumeral : List Char → Option Nat
  | '0' :: 'x' :: cs => numeral 16 cs
  | cs => numeral 10 cs

/-! ## The assembler (R87) -/

/-- The text without blanks at its ends. -/
def trim (text : List Char) : List Char :=
  ((text.dropWhile (· == ' ')).reverse.dropWhile (· == ' ')).reverse

/-- A text cut at every comma; the text before the first comma is `field`, read backwards. -/
def cutAtCommas (field : List Char) : List Char → List (List Char)
  | [] => [field.reverse]
  | ch :: cs => if ch = ',' then field.reverse :: cutAtCommas [] cs else cutAtCommas (ch :: field) cs

/-- The operands of a line after its mnemonic: none at all, or numbers separated by commas. -/
def asmOperands (text : List Char) : Option (List Nat) :=
  if trim text = [] then some [] else (cutAtCommas [] text).mapM fun f => asmNumeral (trim f)

/-- The commands that have no operand in the word, by their mnemonic in lower case (R87). -/
def plainMnemonics : List (List Char × Instr) :=
  [ (['n', 'o', 'p'], .nop), (['m', 'i', 'x'], .mix), (['p', 'r', 'e', 'p', 'a', 'r', 'e'], .prepare),
    (['f', 'i', 'n', 'a', 'l', 'i', 'z', 'e'], .finalize), (['b', 's', 't', 'a', 'r', 't'], .bstart),
    (['b', 'f', 'i', 'n', 'i', 's', 'h'], .bfinish), (['e', 'n', 'c', 'b', 'l', 'k'], .encblk),
    (['c', 'b', 'c', 'i', 'n', 'i', 't'], .cbcinit), (['c', 'b', 'c', 'b', 'l', 'k'], .cbcblk),
    (['c', 'b', 'c', 'b', 'u', 'f'], .cbcbuf) ]

/-- The word of a mnemonic with its operands; an operand outside its range of R81 is refused. -/
def assemble (mnemonic : List Char) (operands : List Nat) : Option Word :=
  match operands with
  | [] => (plainMnemonics.lookup mnemonic).map encode
  | [a] =>
    if mnemonic = ['r', 'o', 'r', '3', '2'] then
      if a < 32 then some (encode (.ror32 (BitVec.ofNat 5 a))) else none
    else if mnemonic = ['r', 'o', 'u', 'n', 'd'] then
      if a < 256 then some (encode (.round (BitVec.ofNat 8 a))) else none
    else if mnemonic = ['.', 'c', 'm', 'd'] then
      if a < 2 ^ 32 then some (BitVec.ofNat 32 a) else none
    else none
  | [a, b] =>
    if mnemonic = ['e', 'x', 't', 'r', 'a', 'c', 't'] ∧ a < 32 ∧ b ≤ 32 then
      some (encode (.extract (BitVec.ofNat 5 a) (BitVec.ofNat 6 b)))
    else none
  | _ => none

/-- The word of one line of assembler text: the mnemonic, then its operands (R87). -/
def assembleLine (line : List Char) : Option Word :=
  let text := trim line
  let mnemonic := text.takeWhile (· != ' ')
  match asmOperands (text.dropWhile (· != ' ')) with
  | none => none
  | some operands => assemble mnemonic operands

/-! ## The ChallengeCodec (60_exceptions.md R230, R231) -/

/-- The 64 template bytes: PT_TEMPLATE, an open parameter (R230; 92_eei_decisions.md D32). -/
abbrev PtTemplate := { bytes : List Byte // bytes.length = 64 }

/-- One digit ORed into the template: the high half of byte pos/2 for an even position, the low half for an odd one. -/
def orDigit (template : List Byte) (pos : Nat) (d : Fin 10) : List Byte :=
  template.modify (pos / 2) fun b =>
    b ||| (if pos % 2 = 0 then BitVec.ofNat 8 d.val <<< 4 else BitVec.ofNat 8 d.val)

/-- The digits from position `pos` on, ORed in order. -/
def orDigits (template : List Byte) (pos : Nat) : List (Fin 10) → List Byte
  | [] => template
  | d :: ds => orDigits (orDigit template pos d) (pos + 1) ds

/-- `buildPlaintext(digits)` over the template: its domain is the digit sequences that fit, `ceil(len/2) <= 64`, and
it answers none outside it (R230). -/
def buildPlaintext (template : PtTemplate) (digits : List (Fin 10)) : Option (List Byte) :=
  if (digits.length + 1) / 2 ≤ 64 then some (orDigits template.val 0 digits) else none

/-- A number as lower-case hex digits, zero-padded to `width`; a wider number is written in full (R231, log entry 11). -/
def hexText (width n : Nat) : List Char :=
  let ds := Nat.toDigits 16 n
  List.replicate (width - ds.length) '0' ++ ds

/-- `extractCode(C, seqHex)`: bytes 48 to 51 of the 64-byte ciphertext (a shorter one: log entry 13), big-endian, after the sequence number (R231;
90_conflicts.md C1). None when the sequence number is no hexadecimal numeral. -/
def extractCode (cipher : List Byte) (seqHex : List Char) : Option (List Char) :=
  match hexNumeral seqHex with
  | none => none
  | some seq => some (['c', 'o', 'd', 'e', ':', ' '] ++ hexText 4 seq ++ hexText 8 (be32 cipher 48).toNat)

/-! ## The command surface (60_exceptions.md R232) -/

/-- The program's two error kinds. The rule gives the first, and the second for malformed input; DESIGN CHOICE, log entry
12: the program ends with the second in every other case where it has no line to print. -/
inductive ProgramError where
  /-- a wrong argument count (R232); and, by log entry 12, the `test` subcommand, which is left out -/
  | usage
  /-- malformed hex or decimal input (R232); and, by log entry 12, digits that do not fit the template, a key of a length
  that WGCORE does not take, or a DATAMEM too small for the plaintext -/
  | preconditionViolation
  deriving DecidableEq, Repr

/-- A digit of a decimal numeral as a digit of `buildPlaintext`. -/
def decimalDigit (d : Nat) : Option (Fin 10) := if h : d < 10 then some ⟨d, h⟩ else none

/-- The digits of a challenge, a decimal numeral (R232): at least one digit and nothing else. -/
def challengeDigits (text : List Char) : Option (List (Fin 10)) :=
  match text, digitsOf 10 text with
  | [], _ => none
  | _, none => none
  | _, some ds => ds.mapM decimalDigit

/-- Pairs of hex digits as bytes; none when one digit is left over. -/
def pairBytes : List Nat → Option (List Byte)
  | [] => some []
  | [_] => none
  | a :: b :: ds => (pairBytes ds).map fun bs => BitVec.ofNat 8 (16 * a + b) :: bs

/-- The bytes of a hexadecimal key string. -/
def hexBytes (text : List Char) : Option (List Byte) := (digitsOf 16 text).bind pairBytes

/-- The WGCORE takes a key of this length and the 64 bytes of a plaintext: CBCBUF with DLEN = 64 raises neither
KEYLEN_INVALID nor DLEN_INVALID there (R230, R232). -/
def programFits (c : Config) (key : List Byte) : Bool := keyLengthOk c key.length && dlenOk c 64#32

/-- `<program> <challenge> <seq> <key>` on the host of a WGCORE: the line it prints, or how it fails (R232). DESIGN
CHOICE, log entry 12: the rule does not say how the program ends when the challenge's digits do not fit the template
or when the WGCORE turns the key's or the plaintext's length away; here it ends with `preconditionViolation`. The
one-argument `test` subcommand, a form of its own in the rule, is left out (00_scope.md R5); that this function then
answers `usage` for it, as for any other single argument, is a DESIGN CHOICE, log entry 12. -/
def runProgram (c : Config) (template : PtTemplate) (args : List (List Char)) : Except ProgramError (List Char) :=
  match args with
  | [challenge, seq, keyText] =>
    match (challengeDigits challenge).bind (buildPlaintext template), hexBytes keyText with
    | some plain, some key =>
      if programFits c key then
        match extractCode (encryptChained c plain key) seq with
        | some line => .ok line
        | none => .error .preconditionViolation
      else .error .preconditionViolation
    | _, _ => .error .preconditionViolation
  | _ => .error .usage

end Sys2Proof.HostSide
end

