-- ==== Sys2Proof/Safety.lean ====
section
/-! DEFINITION. The words claims use: a run of host inputs (70_reset_and_hazards.md rule R248), a sequence of commands,
and the invariant that every step keeps. -/

namespace Sys2Proof.Safety

open Sys2Proof.Machine

/-- The inputs `xs` applied in order from state `s`, stopping at the first fault or refusal (R248). -/
def run (xs : List Input) (s : State) : Host.Outcome State Fault Refusal :=
  Host.Core.run core xs.length (s.setInputs xs)

/-- A run from hard reset ends well: no model fault occurred (R248). ERR = 1 is a legitimate final state. -/
def EndsWell (xs : List Input) : Prop := ∃ t, run xs State.reset = .next t

/-- The commands `is` executed in order, stopping at the first fault or refusal. -/
def execAll : List Instr → State → Host.Outcome State Fault Refusal
  | [], s => .next s
  | i :: is, s =>
    match exec i s with
    | .next t => execAll is t
    | .fault f => .fault f
    | .refused r => .refused r

/-- The memories keep their canonical form and their size (10_state.md R21, R33), the sizes being the defaults that the
machine fixes (log entry 2), and ECODE is one of the recorded codes, 0 exactly while ERR = 0 (10_state.md R28;
60_exceptions.md R210). -/
abbrev Inv (s : State) : Prop :=
  s.keymem.wf ∧ s.keymem.within wgcore.keyBytesMax ∧ s.datamem.wf ∧ s.datamem.within wgcore.dataBytesMax ∧
    (s.err = false → s.ecode = 0#4) ∧ (s.err = true → 1 ≤ s.ecode.toNat ∧ s.ecode.toNat ≤ 4)

/-- The next input is an access of the host. -/
def NextAccess (s : State) (a : Access) (rest : List Input) : Prop := s.inputs = .access a :: rest

end Sys2Proof.Safety
end

