-- ==== Sys2Proof/Certificates/Slice0/Obligations.lean ====
section
/-! DEFINITION. The statements for the provers, one `def Obligations.<Name> : Prop` each, listed in OBLIGATIONS.json in
the same order. Where a statement rests on a choice of the model rather than on a rule, its title or text names the log
entry. The fields `inputs` and `response` of State are the model's own (log entries 1 and 3). -/

open Sys2Proof Sys2Proof.Machine Sys2Proof.HostSide Sys2Proof.Safety

/-- The seven command words R90 lists decode to the commands it names, and the five words it calls illegal decode to
no command. Rests on: R90. -/
def Obligations.SampleWordsDecodeAsTheSpecLists : Prop :=
  (decode 0x00001001#32 = .ok (.ror32 16#5) ∧ decode 0x00000401#32 = .ok (.ror32 4#5) ∧
    decode 0x00061A02#32 = .ok (.extract 26#5 6#6) ∧ decode 0x00200002#32 = .ok (.extract 0#5 32#6) ∧
    decode 0x00000706#32 = .ok (.round 7#8) ∧ decode 0x0000FF06#32 = .ok (.round 255#8) ∧
    decode 0x0000000D#32 = .ok .cbcbuf) ∧
  ∀ w ∈ [0x00000007#32, 0x00210002#32, 0x00002001#32, 0x00400000#32, 0x00000103#32], ∃ e, decode w = .error e

/-- For every well-formed command, with every operand at every value the encoding admits, decode of encode is the
command: no bit of an operand is dropped, and no row of R84 catches another command. Rests on: 30_encoding.md R84
(match, mask and extra condition of each row); 30_encoding.md R81. -/
def Obligations.DecodeOfEncodeIsTheCommand : Prop :=
  ∀ i : Instr, i.wellFormed = true → decode (encode i) = .ok i

/-- For every 32-bit word, if decode answers a command then the command is well-formed and its encoding is exactly
that word: no two words mean the same command and no ignored bits exist. Rests on: 30_encoding.md R84; 30_encoding.md
R85 (no reserved-but-ignored behaviour). -/
def Obligations.DecodedWordIsTheCommandsOwnWord : Prop :=
  ∀ (w : Word) (i : Instr), decode w = .ok i → i.wellFormed = true ∧ encode i = w

/-- For every word: decode refuses it if and only if its opcode is 0x07 or at least 0x0E, or its bits 31:22 are not
all zero, or a field that the opcode map wants 0 is not (FA unless ROR32, EXTRACT or ROUND; bits 15:13 for ROR32 and
EXTRACT; FB unless EXTRACT), or it is EXTRACT with a width above 32. Rests on: 30_encoding.md R85 (the four cases);
30_encoding.md R83. -/
def Obligations.WordIsIllegalExactlyInTheListedCases : Prop :=
  ∀ w : Word,
    let opc := (w.extractLsb' 0 8).toNat
    let fa := w.extractLsb' 8 8
    let fb := w.extractLsb' 16 6
    (∃ e, decode w = .error e) ↔
      (opc = 0x07 ∨ 0x0E ≤ opc) ∨ w.extractLsb' 22 10 ≠ 0#10 ∨
      (¬ (opc = 0x01 ∨ opc = 0x02 ∨ opc = 0x06) ∧ fa ≠ 0#8) ∨
      ((opc = 0x01 ∨ opc = 0x02) ∧ w.extractLsb' 13 3 ≠ 0#3) ∨
      (opc ≠ 0x02 ∧ fb ≠ 0#6) ∨ (opc = 0x02 ∧ 32 < fb.toNat)

/-- When the next input is the host write of word w to CMD and w decodes to command i, step is exec of i at the state
with that input consumed and the write acknowledged to the host (the two fields of the model, log entries 1 and 3).
The command may stop in a fault; then so does the step. Rests on: 10_state.md R30; 60_exceptions.md R211. -/
def Obligations.StepExecutesTheDecodedCommand : Prop :=
  ∀ (s : State) (w : Word) (rest : List Input) (i : Instr),
    NextAccess s (.writeWord 0x010#12 w) rest → decode w = .ok i →
      step s = exec i { s with inputs := rest, response := .done }

/-- The engine has no step of its own (R20): when the host has nothing to issue, the step answers the same state. How
the end of the input list steps is the choice of the model, log entry 1. Rests on: 10_state.md R20 (the engine has no
step of its own); 60_exceptions.md R226. -/
def Obligations.StepWithoutInputChangesNothing : Prop :=
  ∀ s : State, s.inputs = [] → step s = .next s

/-- The spec gives two hosts on one WGCORE no meaning and asks a model to refuse; the step refuses such an input by
name. Rests on: 60_exceptions.md R225; 93_implementation_defined.md U13. -/
def Obligations.SecondHostIsRefused : Prop :=
  ∀ (s : State) (a : Access) (rest : List Input), s.inputs = .otherHost a :: rest → step s = .refused .secondHost

/-- With ERR = 0, a host write to CMD of any word that matches no row of R84 gives a next state with ERR = 1 and ECODE
= 1 and every other part of WGCORE unchanged. Rests on: 30_encoding.md R85 (raises ILLEGAL_COMMAND, no other effect);
60_exceptions.md R212. -/
def Obligations.IllegalWordRaisesIllegalCommand : Prop :=
  ∀ (s : State) (w : Word) (rest : List Input), s.err = false → NextAccess s (.writeWord 0x010#12 w) rest →
    (∀ i : Instr, i.wellFormed = true → encode i ≠ w) →
      step s = .next { s with inputs := rest, response := .done, err := true, ecode := 1#4 }

/-- With ERR = 1, a host write of any word to CMD leaves every register, both memories, ERR and ECODE as they were.
Rests on: 60_exceptions.md R211 step 1; 60_exceptions.md R213. -/
def Obligations.ErrorStateIgnoresEveryCommandWord : Prop :=
  ∀ (s : State) (w : Word) (rest : List Input), s.err = true → NextAccess s (.writeWord 0x010#12 w) rest →
    step s = .next { s with inputs := rest, response := .done }

/-- From a state with ERR = 1, every step that answers a next state keeps ERR = 1 and ECODE, unless the input taken is
a hard reset or a host word write to CTRL with bit 0 set; after those ERR = 0 and ECODE = 0. The machine fixes the
default parameters (log entry 2). Rests on: 60_exceptions.md R213; 70_reset_and_hazards.md R241. -/
def Obligations.ErrorStateEndsOnlyByReset : Prop :=
  ∀ (s t : State) (i : Input) (rest : List Input), s.err = true → s.inputs = i :: rest → step s = .next t →
    let resets := i = .hardReset ∨ ∃ v : Word, i = .access (.writeWord 0x00C#12 v) ∧ v.getLsbD 0 = true
    (resets → t.err = false ∧ t.ecode = 0#4) ∧ (¬ resets → t.err = true ∧ t.ecode = s.ecode)

/-- With ERR = 0 and KEYLEN equal to 0, not a multiple of 16, or above 128, each of the four commands sets ERR and
ECODE 2 and changes nothing else, whatever DLEN, k and the memories are. The machine fixes the default parameters (log
entry 2). Rests on: 60_exceptions.md R210 (code 2); 60_exceptions.md R211 step 3. -/
def Obligations.KeyCommandsRaiseKeylenInvalid : Prop :=
  ∀ (i : Instr) (s : State), ((∃ k, i = .round k) ∨ i = .encblk ∨ i = .cbcblk ∨ i = .cbcbuf) → s.err = false →
    (s.keylen.toNat = 0 ∨ s.keylen.toNat % 16 ≠ 0 ∨ 128 < s.keylen.toNat) →
      exec i s = .next { s with err := true, ecode := 2#4 }

/-- With ERR = 0 and KEYOK = 1, CBCBUF with DLEN not a multiple of 8 or above DATA_BYTES_MAX sets ERR and ECODE 3 and
changes nothing else: DATAMEM is untouched. The machine fixes the default parameters (log entry 2). Rests on:
60_exceptions.md R210 (code 3); 60_exceptions.md R211 step 4; 44_chaining.md R193. -/
def Obligations.CbcbufRaisesDlenInvalid : Prop :=
  ∀ s : State, s.err = false → keyOk wgcore s.keylen = true → (s.dlen.toNat % 8 ≠ 0 ∨ 64 < s.dlen.toNat) →
    exec .cbcbuf s = .next { s with err := true, ecode := 3#4 }

/-- With ERR = 0 and KEYOK = 1, ROUND k with k at least KEYLEN / 16 sets ERR and ECODE 4 and changes nothing else. The
machine fixes the default parameters (log entry 2). Rests on: 60_exceptions.md R210 (code 4); 60_exceptions.md R211
step 5; 43_feistel.md R163. -/
def Obligations.RoundRaisesRoundIndex : Prop :=
  ∀ (k : BitVec 8) (s : State), s.err = false → keyOk wgcore s.keylen = true → s.keylen.toNat / 16 ≤ k.toNat →
    exec (.round k) s = .next { s with err := true, ecode := 4#4 }

/-- For every command and state with ERR = 0: if exec answers a next state with ERR = 1, that state is the old one
with ERR and ECODE written, and ECODE is 2, 3 or 4. Illegal words (code 1) are no commands. The machine fixes the
default parameters (log entry 2). Rests on: 60_exceptions.md R212; 60_exceptions.md R210. -/
def Obligations.ViolationWritesNothingButTheError : Prop :=
  ∀ (i : Instr) (s t : State), s.err = false → exec i s = .next t → t.err = true →
    t = { s with err := true, ecode := t.ecode } ∧ (t.ecode = 2#4 ∨ t.ecode = 3#4 ∨ t.ecode = 4#4)

/-- For every command and state: exec never refuses; if it faults, the fault is UNWRITTEN_READ, ERR was 0, KEYOK was
1, and the command is ROUND k with k below KEYLEN / 16 and one of the key bytes 16k to 16k + 15 UNWRITTEN, or ENCBLK
or CBCBLK with a key byte below KEYLEN UNWRITTEN, or CBCBUF with an acceptable DLEN and a key byte below KEYLEN or a
data byte below DLEN UNWRITTEN. No other command faults. The machine fixes the default parameters (log entry 2). Rests
on: 60_exceptions.md R216; 10_state.md R33; 43_feistel.md R163, R166; 44_chaining.md R192, R193. -/
def Obligations.CommandFaultsOnlyOnUnwrittenBytes : Prop :=
  ∀ (i : Instr) (s : State),
    (∀ r, exec i s ≠ .refused r) ∧
    ∀ f, exec i s = .fault f →
      f = .unwrittenRead ∧ s.err = false ∧ keyOk wgcore s.keylen = true ∧
        ((∃ k : BitVec 8, i = .round k ∧ k.toNat < s.keylen.toNat / 16 ∧
            ∃ j, j < 16 ∧ s.keymem.read (16 * k.toNat + j) = none) ∨
          ((i = .encblk ∨ i = .cbcblk) ∧ ∃ j, j < s.keylen.toNat ∧ s.keymem.read j = none) ∨
          (i = .cbcbuf ∧ dlenOk wgcore s.dlen = true ∧
            ((∃ j, j < s.keylen.toNat ∧ s.keymem.read j = none) ∨ ∃ j, j < s.dlen.toNat ∧ s.datamem.read j = none)))

/-- With ERR = 0 and KEYOK = 1: ENCBLK and CBCBLK fault when any key byte below KEYLEN is UNWRITTEN; CBCBUF with an
acceptable DLEN also when any data byte below DLEN is; ROUND k with k below KEYLEN / 16 when any of its 16 chunk bytes
is. The machine fixes the default parameters (log entry 2). Rests on: 43_feistel.md R163, R166 (model fault
UNWRITTEN_READ); 44_chaining.md R192, R193; 10_state.md R33. -/
def Obligations.UnwrittenOperandByteFaults : Prop :=
  ∀ s : State, s.err = false → keyOk wgcore s.keylen = true →
    ((∃ j, j < s.keylen.toNat ∧ s.keymem.read j = none) →
      exec .encblk s = .fault .unwrittenRead ∧ exec .cbcblk s = .fault .unwrittenRead ∧
        (dlenOk wgcore s.dlen = true → exec .cbcbuf s = .fault .unwrittenRead)) ∧
    ((∃ j, j < s.dlen.toNat ∧ s.datamem.read j = none) → dlenOk wgcore s.dlen = true →
      exec .cbcbuf s = .fault .unwrittenRead) ∧
    ∀ k : BitVec 8, k.toNat < s.keylen.toNat / 16 → (∃ j, j < 16 ∧ s.keymem.read (16 * k.toNat + j) = none) →
      exec (.round k) s = .fault .unwrittenRead

/-- NOP answers the same state, in every state: every register, both memories and the error fields are unchanged.
Rests on: 40_bitops.md R103 (no effect). -/
def Obligations.NopChangesNothing : Prop :=
  ∀ s : State, exec .nop s = .next s

/-- With ERR = 0, ROR32 n gives a next state that differs only in RES0, and bit i of RES0 is bit (i + n) mod 32 of
OPA, for every n in 0..31. Rests on: 40_bitops.md R104; 40_bitops.md R101 (bit i of the result). -/
def Obligations.Ror32RotatesOpaIntoRes0 : Prop :=
  ∀ (n : BitVec 5) (s : State), s.err = false →
    ∃ v : Word, exec (.ror32 n) s = .next { s with res0 := v } ∧
      ∀ i, i < 32 → v.getLsbD i = s.opa.getLsbD ((i + n.toNat) % 32)

/-- With ERR = 0, EXTRACT gives a next state that differs only in RES0, whose value is (OPA >> lsb) & (2^width - 1) in
unbounded integers: OPA / 2^lsb modulo 2^width. Rests on: 40_bitops.md R105; 40_bitops.md R102. -/
def Obligations.ExtractReadsTheFieldOfOpa : Prop :=
  ∀ (lsb : BitVec 5) (width : BitVec 6) (s : State), s.err = false → width.toNat ≤ 32 →
    ∃ v : Word, exec (.extract lsb width) s = .next { s with res0 := v } ∧
      v.toNat = s.opa.toNat / 2 ^ lsb.toNat % 2 ^ width.toNat

/-- With ERR = 0, MIX gives a next state that differs only in RES0, the XOR of the entries that the fields (w >> 2) &
0x3F, (w >> 10) & 0x3F, (w >> 18) & 0x3F and w >> 26 of OPA select in tables 0, 2, 4, 6 and those of OPB in tables 1,
3, 5, 7. The machine fixes the default parameters (log entry 2). Rests on: 41_substitution.md R125; 41_substitution.md
R120; 41_substitution.md R121. -/
def Obligations.MixXorsEightLookupsIntoRes0 : Prop :=
  ∀ s : State, s.err = false →
    let f := fun (w : Word) (o : Nat) => BitVec.ofNat 6 (w.toNat / 2 ^ o % 64)
    let v : Word := wgcore.sbox 0 (f s.opa 2) ^^^ wgcore.sbox 2 (f s.opa 10) ^^^ wgcore.sbox 4 (f s.opa 18) ^^^
      wgcore.sbox 6 (BitVec.ofNat 6 (s.opa.toNat / 2 ^ 26)) ^^^
      wgcore.sbox 1 (f s.opb 2) ^^^ wgcore.sbox 3 (f s.opb 10) ^^^ wgcore.sbox 5 (f s.opb 18) ^^^
      wgcore.sbox 7 (BitVec.ofNat 6 (s.opb.toNat / 2 ^ 26))
    exec .mix s = .next { s with res0 := v }

/-- With ERR = 0, PREPARE gives a next state that differs only in RES0 and RES1, and each of their bits is the bit of
OPA (in0) or OPB (in1) that the explicit bit map of R142 lists. The machine fixes the default network (log entry 2).
Rests on: 42_permutation.md R145; 42_permutation.md R142. -/
def Obligations.PrepareFollowsItsBitMap : Prop :=
  ∀ s : State, s.err = false →
    ∃ v0 v1 : Word, exec .prepare s = .next { s with res0 := v0, res1 := v1 } ∧
      ∀ i, i < 32 → v0.getLsbD i = mapBit prepareMap0 s.opa s.opb i ∧ v1.getLsbD i = mapBit prepareMap1 s.opa s.opb i

/-- With ERR = 0, FINALIZE gives a next state that differs only in RES0 and RES1, and each of their bits is the bit of
OPA (in0) or OPB (in1) that the explicit bit map of R144 lists. The machine fixes the default network (log entry 2).
Rests on: 42_permutation.md R146; 42_permutation.md R144. -/
def Obligations.FinalizeFollowsItsBitMap : Prop :=
  ∀ s : State, s.err = false →
    ∃ v0 v1 : Word, exec .finalize s = .next { s with res0 := v0, res1 := v1 } ∧
      ∀ i, i < 32 → v0.getLsbD i = mapBit finalizeMap0 s.opa s.opb i ∧ v1.getLsbD i = mapBit finalizeMap1 s.opa s.opb i

/-- With ERR = 0 and whatever KEYLEN is, BSTART gives a next state that differs only in SL and SR: the first and
second result of prepare on (DIN0, DIN1), bit by bit as the map of R142 lists them. The machine fixes the default
parameters (log entry 2). Rests on: 43_feistel.md R164; 42_permutation.md R142. -/
def Obligations.BstartLoadsThePreparedBlock : Prop :=
  ∀ s : State, s.err = false →
    ∃ v0 v1 : Word, exec .bstart s = .next { s with sl := v0, sr := v1 } ∧
      ∀ i, i < 32 → v0.getLsbD i = mapBit prepareMap0 s.din0 s.din1 i ∧ v1.getLsbD i = mapBit prepareMap1 s.din0 s.din1 i

/-- With ERR = 0 and whatever KEYLEN is, BFINISH gives a next state that differs only in DOUT0 and DOUT1: the results
of finalize with SR as its first argument and SL as its second, bit by bit as the map of R144 lists them. The machine
fixes the default parameters (log entry 2). Rests on: 43_feistel.md R165; 42_permutation.md R144. -/
def Obligations.BfinishOutputsTheFinalizedState : Prop :=
  ∀ s : State, s.err = false →
    ∃ v0 v1 : Word, exec .bfinish s = .next { s with dout0 := v0, dout1 := v1 } ∧
      ∀ i, i < 32 → v0.getLsbD i = mapBit finalizeMap0 s.sr s.sl i ∧ v1.getLsbD i = mapBit finalizeMap1 s.sr s.sl i

/-- With ERR = 0, KEYOK = 1, k below KEYLEN / 16 and the 16 bytes of chunk k written, ROUND k gives a next state that
differs only in SL and SR: the new SR is SR ^ mix(kL1 ^ SL, ror32(kR1 ^ SL, 4)) and the new SL is mix(kL2 ^ SR,
ror32(kR2 ^ SR, 4)) ^ SL with the new SR, the key words being the little-endian words of the chunk. The machine fixes
the default parameters (log entry 2). Rests on: 43_feistel.md R163; 43_feistel.md R161; 43_feistel.md R160. -/
def Obligations.RoundUpdatesBothHalves : Prop :=
  ∀ (k : BitVec 8) (s : State) (chunk : List Byte), s.err = false → keyOk wgcore s.keylen = true →
    k.toNat < s.keylen.toNat / 16 → s.keymem.readBytes (16 * k.toNat) 16 = some chunk →
    ∃ newR newL : Word,
      newR = s.sr ^^^ mix wgcore (le32 chunk 0 ^^^ s.sl) ((le32 chunk 4 ^^^ s.sl).rotateRight 4) ∧
      newL = mix wgcore (le32 chunk 8 ^^^ newR) ((le32 chunk 12 ^^^ newR).rotateRight 4) ^^^ s.sl ∧
      exec (.round k) s = .next { s with sl := newL, sr := newR }

/-- With ERR = 0, KEYOK = 1 and every key byte below KEYLEN written, ENCBLK gives a next state that differs only in
DOUT, SL and SR: the bytes of DOUT are encryptBlock of the bytes of DIN and the key bytes, and (SL, SR) is prepare of
DIN followed by round 0 to round KEYLEN/16 - 1 in order. The machine fixes the default parameters (log entry 2). Rests
on: 43_feistel.md R166; 43_feistel.md R162; 10_state.md R24. -/
def Obligations.EncblkEncryptsTheInputBlock : Prop :=
  ∀ (s : State) (key : List Byte), s.err = false → keyOk wgcore s.keylen = true →
    s.keymem.readBytes 0 s.keylen.toNat = some key →
    ∃ (out : Block) (st : Word × Word),
      exec .encblk s = .next { s with dout0 := out.1, dout1 := out.2, sl := st.1, sr := st.2 } ∧
      packLe32 out.1 ++ packLe32 out.2 = encryptBlock wgcore (packLe32 s.din0 ++ packLe32 s.din1) key ∧
      st = (List.range (s.keylen.toNat / 16)).foldl (fun st k => roundStep wgcore (chunkOf key k) st)
        (wgcore.prepareNet s.din0 s.din1)

/-- With ERR = 0 and whatever KEYLEN is, CBCINIT gives a next state that differs only in PREV0 = PREV1 = 0. Rests on:
44_chaining.md R191. -/
def Obligations.CbcinitClearsTheAccumulator : Prop :=
  ∀ s : State, s.err = false → exec .cbcinit s = .next { s with prev0 := 0#32, prev1 := 0#32 }

/-- With ERR = 0, KEYOK = 1 and every key byte below KEYLEN written, CBCBLK gives a next state that differs only in
DOUT, PREV, SL and SR: DOUT and PREV are both encryptBlock of the byte-wise XOR of the DIN and PREV blocks, and (SL,
SR) is the last round state, from which finalize(SR, SL) gives DOUT. The machine fixes the default parameters (log
entry 2). Rests on: 44_chaining.md R192; 44_chaining.md R190 (byte-wise XOR). -/
def Obligations.CbcblkChainsOneBlock : Prop :=
  ∀ (s : State) (key : List Byte), s.err = false → keyOk wgcore s.keylen = true →
    s.keymem.readBytes 0 s.keylen.toNat = some key →
    ∃ (out : Block) (st : Word × Word),
      exec .cbcblk s = .next { s with dout0 := out.1, dout1 := out.2, prev0 := out.1, prev1 := out.2, sl := st.1, sr := st.2 } ∧
      packLe32 out.1 ++ packLe32 out.2 = encryptBlock wgcore
        (List.zipWith (fun x y => x ^^^ y) (packLe32 s.din0 ++ packLe32 s.din1) (packLe32 s.prev0 ++ packLe32 s.prev1)) key ∧
      out = wgcore.finalizeNet st.2 st.1 ∧
      st = (List.range (s.keylen.toNat / 16)).foldl (fun st k => roundStep wgcore (chunkOf key k) st)
        (wgcore.prepareNet (s.din0 ^^^ s.prev0) (s.din1 ^^^ s.prev1))

/-- With ERR = 0, KEYOK = 1, DLEN a positive multiple of 8 up to 64 and all key and data bytes written, CBCBUF gives a
next state that differs only in DATAMEM, PREV, SL and SR: DATAMEM bytes below DLEN are encryptChained of the old ones,
every byte at DLEN and above reads as before, PREV is the last ciphertext block, and finalize(SR, SL) is that block
too, (SL, SR) being the round state of the last block XORed with the ciphertext before it. The machine fixes the
default parameters (log entry 2). Rests on: 44_chaining.md R193; 44_chaining.md R190; 43_feistel.md R167. -/
def Obligations.CbcbufEncryptsTheBufferInPlace : Prop :=
  ∀ (s : State) (key plain : List Byte), s.err = false → keyOk wgcore s.keylen = true →
    s.dlen.toNat % 8 = 0 → s.dlen.toNat ≤ 64 → s.dlen.toNat ≠ 0 →
    s.keymem.readBytes 0 s.keylen.toNat = some key → s.datamem.readBytes 0 s.dlen.toNat = some plain →
    ∃ t : State, exec .cbcbuf s = .next t ∧
      t = { s with datamem := t.datamem, prev0 := t.prev0, prev1 := t.prev1, sl := t.sl, sr := t.sr } ∧
      (let cipher := encryptChained wgcore plain key
       let last := s.dlen.toNat - 8
       let before : Block := if last = 0 then (0#32, 0#32) else (le32 cipher (last - 8), le32 cipher (last - 4))
       t.datamem.readBytes 0 s.dlen.toNat = some cipher ∧
       (∀ a, s.dlen.toNat ≤ a → t.datamem.read a = s.datamem.read a) ∧
       (t.prev0, t.prev1) = (le32 cipher last, le32 cipher (last + 4)) ∧
       wgcore.finalizeNet t.sr t.sl = (t.prev0, t.prev1) ∧
       (t.sl, t.sr) = roundState wgcore (roundKeys key) (le32 plain last ^^^ before.1, le32 plain (last + 4) ^^^ before.2))

/-- With ERR = 0, KEYOK = 1, DLEN = 0 and the key bytes written, CBCBUF gives a next state that differs only in PREV0
= PREV1 = 0: DATAMEM, SL and SR are unchanged. The machine fixes the default parameters (log entry 2). Rests on:
44_chaining.md R193 (DLEN = 0); 92_eei_decisions.md D33. -/
def Obligations.CbcbufOnAnEmptyBufferClearsPrev : Prop :=
  ∀ (s : State) (key : List Byte), s.err = false → keyOk wgcore s.keylen = true → s.dlen = 0#32 →
    s.keymem.readBytes 0 s.keylen.toNat = some key →
    exec .cbcbuf s = .next { s with prev0 := 0#32, prev1 := 0#32 }

/-- For every configuration, key bytes and plaintext of 8n bytes: the ciphertext has 8n bytes, and its block i is
encryptBlock of plaintext block i XORed byte-wise with ciphertext block i - 1, or with 8 zero bytes for i = 0. So the
first block is plain encryptBlock of it. What a key outside the precondition of R162 stands for is the choice of the
model, log entry 13. Rests on: 44_chaining.md R190; 44_chaining.md R195 (first block). -/
def Obligations.EncryptChainedBlockByBlock : Prop :=
  ∀ (c : Config) (plain key : List Byte), plain.length % 8 = 0 →
    let cipher := encryptChained c plain key
    let block := fun (b : List Byte) (i : Nat) => (b.drop (8 * i)).take 8
    cipher.length = plain.length ∧
    ∀ i, i < plain.length / 8 →
      block cipher i = encryptBlock c
        (List.zipWith (fun x y => x ^^^ y) (block plain i) (if i = 0 then List.replicate 8 0#8 else block cipher (i - 1))) key

/-- For every command and state, if exec answers a next state then KEYMEM and the registers whose "written by
commands" entry is none are unchanged, and so are the two host-side fields of the model. The machine fixes the default
parameters (log entry 2). Rests on: 10_state.md R22 (written by commands: none); 10_state.md R36. -/
def Obligations.CommandsNeverWriteTheirInputs : Prop :=
  ∀ (i : Instr) (s t : State), exec i s = .next t →
    t.keymem = s.keymem ∧ t.keylen = s.keylen ∧ t.dlen = s.dlen ∧ t.opa = s.opa ∧ t.opb = s.opb ∧
    t.din0 = s.din0 ∧ t.din1 = s.din1 ∧ t.inputs = s.inputs ∧ t.response = s.response

/-- If exec answers a next state in which one of these differs, the command is among those the register map lists:
RES0 by ROR32, EXTRACT, MIX, PREPARE, FINALIZE; RES1 by PREPARE, FINALIZE; SL or SR by ROUND, BSTART, ENCBLK, CBCBLK,
CBCBUF; PREV by CBCINIT, CBCBLK, CBCBUF; DOUT by BFINISH, ENCBLK, CBCBLK; DATAMEM by CBCBUF. The machine fixes the
default parameters (log entry 2). Rests on: 10_state.md R22 (written by commands); 10_state.md R37. -/
def Obligations.EachRegisterIsWrittenOnlyByItsCommands : Prop :=
  ∀ (i : Instr) (s t : State), exec i s = .next t →
    (t.res0 ≠ s.res0 → (∃ n, i = .ror32 n) ∨ (∃ l w, i = .extract l w) ∨ i = .mix ∨ i = .prepare ∨ i = .finalize) ∧
    (t.res1 ≠ s.res1 → i = .prepare ∨ i = .finalize) ∧
    ((t.sl, t.sr) ≠ (s.sl, s.sr) → (∃ k, i = .round k) ∨ i = .bstart ∨ i = .encblk ∨ i = .cbcblk ∨ i = .cbcbuf) ∧
    ((t.prev0, t.prev1) ≠ (s.prev0, s.prev1) → i = .cbcinit ∨ i = .cbcblk ∨ i = .cbcbuf) ∧
    ((t.dout0, t.dout1) ≠ (s.dout0, s.dout1) → i = .bfinish ∨ i = .encblk ∨ i = .cbcblk) ∧
    (t.datamem ≠ s.datamem → i = .cbcbuf)

/-- At State.reset both memories are in canonical form and below KEY_BYTES_MAX and DATA_BYTES_MAX, and ECODE is 0 with
ERR = 0. The machine fixes these sizes at their defaults, 128 and 64, by the model choice of log entry 2. Rests on:
70_reset_and_hazards.md R240; 10_state.md R28. -/
def Obligations.ResetMeetsTheInvariant : Prop :=
  Inv State.reset

/-- From every state that meets the invariant, reached or not, and whatever input comes next, if step answers a next
state then that state meets it: KEYMEM and DATAMEM list strictly rising indices below KEY_BYTES_MAX and
DATA_BYTES_MAX, ECODE is 0 while ERR = 0 and 1 to 4 while ERR = 1. The machine fixes these sizes at their defaults,
128 and 64, by the model choice of log entry 2. Rests on: 10_state.md R21, R28, R33; 60_exceptions.md R210 (codes 5 to
15 are never recorded); 20_memory.md R52. -/
def Obligations.StepKeepsTheInvariant : Prop :=
  ∀ s t : State, Inv s → step s = .next t → Inv t

/-- For every data register at its offset: a host word read completes and answers its current value, changing nothing;
a host word write completes, and after it that register holds the value written unless it is RES0, RES1, DOUT0 or
DOUT1, while every other register, ERR, ECODE and both memories are unchanged. Any value is legal and none is checked,
and this holds with ERR = 1 too. Rests on: R23. -/
def Obligations.DataRegistersReadAndWriteOverTheBus : Prop :=
  ∀ (s : State) (r : Reg) (v : Word) (rest : List Input),
    (NextAccess s (.readWord (regOffset r)) rest →
      step s = .next { s with inputs := rest, response := .word (s.reg r) }) ∧
    (NextAccess s (.writeWord (regOffset r) v) rest →
      ∃ t : State, step s = .next t ∧
        (∀ r', t.reg r' = if r' = r ∧ ¬ (r = .res0 ∨ r = .res1 ∨ r = .dout0 ∨ r = .dout1) then v else s.reg r') ∧
        t.err = s.err ∧ t.ecode = s.ecode ∧ t.keymem = s.keymem ∧ t.datamem = s.datamem ∧ t.inputs = rest ∧
        t.response = .done)

/-- For every read access of any width at any offset, if the step completes then the state differs only in the host-
side fields of the model: the input is consumed and the answer set. The machine fixes the default parameters (log
entry 2). Rests on: 20_memory.md R57 (reads have no side effects). -/
def Obligations.ReadsHaveNoSideEffects : Prop :=
  ∀ (s t : State) (o : Offset) (a : Access) (rest : List Input), (a = .readByte o ∨ a = .readHalf o ∨ a = .readWord o) →
    NextAccess s a rest → step s = .next t → t = { s with inputs := rest, response := t.response }

/-- In every state, a host word read of 0x000 answers 0x57475231 and one of 0x004 answers 0x00080008, and a word write
to either changes nothing of WGCORE. The value of CONFIG is that of the default parameters, which the machine fixes by
the model choice of log entry 2; in every configuration CONFIG bits 15:0 are KEY_BYTES_MAX / 16 and bits 31:16
DATA_BYTES_MAX / 8. Rests on: 10_state.md R26; 10_state.md R27 (the fields of CONFIG, and its value with the
defaults). -/
def Obligations.IdAndConfigAreConstants : Prop :=
  ∀ (s : State) (v : Word) (rest : List Input),
    (NextAccess s (.readWord 0x000#12) rest → step s = .next { s with inputs := rest, response := .word 0x57475231#32 }) ∧
    (NextAccess s (.readWord 0x004#12) rest → step s = .next { s with inputs := rest, response := .word 0x00080008#32 }) ∧
    (NextAccess s (.writeWord 0x000#12 v) rest → step s = .next { s with inputs := rest, response := .done }) ∧
    (NextAccess s (.writeWord 0x004#12 v) rest → step s = .next { s with inputs := rest, response := .done }) ∧
    ∀ c : Config, (readReg c s .config).extractLsb' 0 16 = BitVec.ofNat 16 (c.keyBytesMax / 16) ∧
      (readReg c s .config).extractLsb' 16 16 = BitVec.ofNat 16 (c.dataBytesMax / 8)

/-- A host word read of 0x008 completes and answers a word whose bit 0 is ERR, bit 1 KEYOK, bits 7:4 ECODE, bits 15:8
KEYLEN / 16 when KEYOK = 1 and else 0, and whose other bits are 0; KEYOK is KEYLEN not 0, a multiple of 16 and at most
128. A word write of any value to STATUS changes nothing, ERR included. The machine fixes the default parameters (log
entry 2). Rests on: 10_state.md R28. -/
def Obligations.StatusReadsItsFields : Prop :=
  ∀ (s : State) (v : Word) (rest : List Input),
    (NextAccess s (.readWord 0x008#12) rest →
      ∃ w : Word, step s = .next { s with inputs := rest, response := .word w } ∧
        w.getLsbD 0 = s.err ∧
        (w.getLsbD 1 = true ↔ s.keylen.toNat ≠ 0 ∧ s.keylen.toNat % 16 = 0 ∧ s.keylen.toNat ≤ 128) ∧
        w.extractLsb' 2 2 = 0#2 ∧ w.extractLsb' 4 4 = s.ecode ∧
        (w.extractLsb' 8 8).toNat = (if w.getLsbD 1 then s.keylen.toNat / 16 else 0) ∧ w.extractLsb' 16 16 = 0#16) ∧
    (NextAccess s (.writeWord 0x008#12 v) rest → step s = .next { s with inputs := rest, response := .done })

/-- A host word write to 0x00C with bit 0 = 1 gives every register, ERR and ECODE their hard-reset value and keeps
KEYMEM and DATAMEM; with bit 0 = 0 nothing changes, whatever bits 31:1 are. Reads of CTRL and CMD answer 0. Rests on:
10_state.md R29; 10_state.md R30; 70_reset_and_hazards.md R241. -/
def Obligations.CtrlBitZeroSoftResets : Prop :=
  ∀ (s : State) (v : Word) (rest : List Input),
    (NextAccess s (.writeWord 0x00C#12 v) rest → v.getLsbD 0 = true →
      step s = .next { State.reset with keymem := s.keymem, datamem := s.datamem, inputs := rest, response := .done }) ∧
    (NextAccess s (.writeWord 0x00C#12 v) rest → v.getLsbD 0 = false →
      step s = .next { s with inputs := rest, response := .done }) ∧
    (NextAccess s (.readWord 0x00C#12) rest ∨ NextAccess s (.readWord 0x010#12) rest →
      step s = .next { s with inputs := rest, response := .word 0#32 })

/-- At every word-aligned reserved offset a host word read completes with answer 0 and a host word write completes;
neither changes anything of WGCORE. Rests on: R31. -/
def Obligations.ReservedOffsetsReadZeroAndIgnoreWrites : Prop :=
  ∀ (s : State) (o : Offset) (v : Word) (rest : List Input),
    (o.toNat = 0x01C ∨ (0x050 ≤ o.toNat ∧ o.toNat ≤ 0x0FC ∧ o.toNat % 4 = 0)) →
    (NextAccess s (.readWord o) rest → step s = .next { s with inputs := rest, response := .word 0#32 }) ∧
    (NextAccess s (.writeWord o v) rest → step s = .next { s with inputs := rest, response := .done })

/-- When the next input is the hard reset of the platform, the step completes in State.reset with only the inputs
still to come kept (how the input arises, and that they are kept, is the choice of log entry 8). Rests on:
70_reset_and_hazards.md R240. -/
def Obligations.HardResetRestoresTheResetState : Prop :=
  ∀ (s : State) (rest : List Input), s.inputs = .hardReset :: rest → step s = .next { State.reset with inputs := rest }

/-- At State.reset all fourteen data registers are 0, ERR = 0, ECODE = 0, STATUS reads 0, CONFIG reads 0x00080008, ID
reads 0x57475231, CTRL and CMD read 0, and no byte of KEYMEM or DATAMEM is written. The machine fixes the default
parameters (log entry 2). Rests on: 70_reset_and_hazards.md R240. -/
def Obligations.ResetValuesOfTheSpec : Prop :=
  (∀ r, State.reset.reg r = 0#32) ∧ State.reset.err = false ∧ State.reset.ecode = 0#4 ∧
  readReg wgcore State.reset .status = 0#32 ∧ readReg wgcore State.reset .config = 0x00080008#32 ∧
  readReg wgcore State.reset .id = 0x57475231#32 ∧ readReg wgcore State.reset .ctrl = 0#32 ∧
  readReg wgcore State.reset .cmd = 0#32 ∧
  ∀ j, State.reset.keymem.read j = none ∧ State.reset.datamem.read j = none

/-- For every host access: the step faults with BUS_ERROR if and only if it is not an aligned word access below 0x100,
not a byte or aligned word access in the KEYMEM window wholly below KEY_BYTES_MAX, and not one in the DATAMEM window
wholly below DATA_BYTES_MAX. So halfwords, misaligned words, bytes in REGS and the gap 0x500 to 0x7FF always fault,
and a command never causes a bus error. The machine fixes the default parameters (log entry 2). Rests on: 20_memory.md
R51; 20_memory.md R52; 20_memory.md R53; 20_memory.md R55. -/
def Obligations.BusErrorExactlyOnUnadmittedAccess : Prop :=
  ∀ (s : State) (a : Access) (rest : List Input), NextAccess s a rest →
    let o := (accessOffset a).toNat
    let n := accessWidth a
    (step s = .fault .busError ↔
      ¬ ((o < 0x100 ∧ n = 4 ∧ o % 4 = 0) ∨
        (0x100 ≤ o ∧ o < 0x500 ∧ (n = 1 ∨ (n = 4 ∧ o % 4 = 0)) ∧ o - 0x100 + n ≤ 128) ∨
        (0x800 ≤ o ∧ (n = 1 ∨ (n = 4 ∧ o % 4 = 0)) ∧ o - 0x800 + n ≤ 64)))

/-- A host word write at an admitted offset of the KEYMEM or DATAMEM window stores byte i of the word at index i past
the first; a byte write stores its byte. Every other byte of that memory reads as before, and nothing else changes.
The machine fixes the default parameters (log entry 2). Rests on: 20_memory.md R52; 20_memory.md R54; 20_memory.md
R57. -/
def Obligations.WindowWritesStoreLittleEndian : Prop :=
  ∀ (s : State) (o : Offset) (v : Word) (b : Byte) (rest : List Input),
    let word := fun (m : Memory) (j a : Nat) => if j ≤ a ∧ a < j + 4 then some (v.extractLsb' (8 * (a - j)) 8) else m.read a
    let byte := fun (m : Memory) (j a : Nat) => if a = j then some b else m.read a
    let kj := o.toNat - 0x100
    let dj := o.toNat - 0x800
    (NextAccess s (.writeWord o v) rest → 0x100 ≤ o.toNat → o.toNat % 4 = 0 → kj + 4 ≤ 128 →
      ∃ m : Memory, step s = .next { s with keymem := m, inputs := rest, response := .done } ∧
        ∀ a, m.read a = word s.keymem kj a) ∧
    (NextAccess s (.writeByte o b) rest → 0x100 ≤ o.toNat → kj + 1 ≤ 128 →
      ∃ m : Memory, step s = .next { s with keymem := m, inputs := rest, response := .done } ∧
        ∀ a, m.read a = byte s.keymem kj a) ∧
    (NextAccess s (.writeWord o v) rest → 0x800 ≤ o.toNat → o.toNat % 4 = 0 → dj + 4 ≤ 64 →
      ∃ m : Memory, step s = .next { s with datamem := m, inputs := rest, response := .done } ∧
        ∀ a, m.read a = word s.datamem dj a) ∧
    (NextAccess s (.writeByte o b) rest → 0x800 ≤ o.toNat → dj + 1 ≤ 64 →
      ∃ m : Memory, step s = .next { s with datamem := m, inputs := rest, response := .done } ∧
        ∀ a, m.read a = byte s.datamem dj a)

/-- A host word read at an admitted offset of the KEYMEM or DATAMEM window answers the word whose bits 8i+7:8i are the
byte at index i past the first, a byte read that byte, changing nothing else; if a byte it covers is UNWRITTEN the
step faults with UNWRITTEN_READ. The machine fixes the default parameters (log entry 2). Rests on: 20_memory.md R54;
10_state.md R33; 60_exceptions.md R216. -/
def Obligations.WindowReadsReturnLittleEndian : Prop :=
  ∀ (s : State) (o : Offset) (rest : List Input),
    let word := fun (m : Memory) (j : Nat) =>
      ((∃ i, i < 4 ∧ m.read (j + i) = none) → step s = .fault .unwrittenRead) ∧
      ((∀ i, i < 4 → m.read (j + i) ≠ none) →
        ∃ w : Word, step s = .next { s with inputs := rest, response := .word w } ∧
          ∀ i, i < 4 → m.read (j + i) = some (w.extractLsb' (8 * i) 8))
    let byte := fun (m : Memory) (j : Nat) =>
      match m.read j with
      | none => step s = .fault .unwrittenRead
      | some b => step s = .next { s with inputs := rest, response := .byte b }
    let kj := o.toNat - 0x100
    let dj := o.toNat - 0x800
    (NextAccess s (.readWord o) rest → 0x100 ≤ o.toNat → o.toNat % 4 = 0 → kj + 4 ≤ 128 → word s.keymem kj) ∧
    (NextAccess s (.readByte o) rest → 0x100 ≤ o.toNat → kj + 1 ≤ 128 → byte s.keymem kj) ∧
    (NextAccess s (.readWord o) rest → 0x800 ≤ o.toNat → o.toNat % 4 = 0 → dj + 4 ≤ 64 → word s.datamem dj) ∧
    (NextAccess s (.readByte o) rest → 0x800 ≤ o.toNat → dj + 1 ≤ 64 → byte s.datamem dj)

/-- When the next two inputs are the same host access, not a word write to CMD, and the first completes, the second
completes and changes nothing more but that its input is consumed: registers, memories, ERR, ECODE and the answer to
the host are the same. The machine fixes the default parameters (log entry 2). Rests on: 20_memory.md R57 (every other
admitted access is idempotent). -/
def Obligations.RepeatedAccessesAreIdempotent : Prop :=
  ∀ (s t : State) (a : Access) (rest : List Input), (∀ w, a ≠ .writeWord 0x010#12 w) →
    s.inputs = .access a :: .access a :: rest → step s = .next t → step t = .next { t with inputs := rest }

/-- For all words and amounts in their ranges: ror32 composes by adding amounts modulo 32, is a bijection for each
fixed amount, and distributes over XOR; extractBits is below 2^w for w below 32; the field at 26 of width 6 is v >>
26; the fields at 2, 10 and 18 of width 6 are (v >> o) & 0x3F. Rests on: R106. -/
def Obligations.Ror32AndExtractLaws : Prop :=
  (∀ (v : Word) (a b : Nat), a < 32 → b < 32 → ror32 (ror32 v a) b = ror32 v ((a + b) % 32)) ∧
  (∀ n, n < 32 → Function.Bijective fun v : Word => ror32 v n) ∧
  (∀ (v u : Word) (n : Nat), n < 32 → ror32 (v ^^^ u) n = ror32 v n ^^^ ror32 u n) ∧
  (∀ (v : Word) (lsb w : Nat), lsb < 32 → w < 32 → (extractBits v lsb w).toNat < 2 ^ w) ∧
  (∀ v : Word, extractBits v 26 6 = v >>> 26) ∧
  (∀ (v : Word) (o : Nat), o ∈ [2, 10, 18] → extractBits v o 6 = (v >>> o) &&& 0x3F#32)

/-- Every entry of default table t has no bit outside the mask R126 lists for t; the masks are pairwise disjoint and
their union is 0xFFFFFFFF. The machine fixes the default parameters (log entry 2). Rests on: 41_substitution.md R126.
-/
def Obligations.DefaultTablesHaveDisjointMasks : Prop :=
  let mask : Fin 8 → Word := fun t =>
    [0x02080802#32, 0x40108010#32, 0x04040101#32, 0x10401008#32, 0x08010420#32, 0x80202040#32, 0x01004204#32,
      0x20820080#32].getD t.val 0#32
  (∀ (t : Fin 8) (i : BitVec 6), wgcore.sbox t i &&& ~~~ (mask t) = 0#32) ∧
  (∀ t u : Fin 8, t ≠ u → mask t &&& mask u = 0#32) ∧
  (List.finRange 8).foldl (fun x t => x ||| mask t) 0#32 = 0xFFFFFFFF#32

/-- For all words a and b: finalize of the results of prepare(a, b) is (a, b), and prepare of the results of
finalize(a, b) is (a, b), by position. The machine fixes the default parameters (log entry 2). Rests on:
42_permutation.md R147 item 1; 90_conflicts.md C4. -/
def Obligations.DefaultNetworksAreInverse : Prop :=
  ∀ a b : Word,
    (let p := wgcore.prepareNet a b; wgcore.finalizeNet p.1 p.2 = (a, b)) ∧
    (let q := wgcore.finalizeNet a b; wgcore.prepareNet q.1 q.2 = (a, b))

/-- The memory sizes are multiples of 16 and 8 in their ranges, and both networks are bijections on pairs of words.
That the machine fixes these defaults is the choice of log entry 2. Rests on: 00_scope.md R7 (legal values);
42_permutation.md R140. -/
def Obligations.MachineParametersAreLegal : Prop :=
  wgcore.Legal

/-- For every SBOX: if two round keys agree outside bits 1:0, 9:8, 17:16 and 25:24 of kL1 and kL2 and outside bits
5:4, 13:12, 21:20 and 29:28 of kR1 and kR2, then round gives the same result with either, on every round state. Rests
on: 43_feistel.md R169 item 1; 41_substitution.md R120. -/
def Obligations.IgnoredKeyBitsHaveNoEffect : Prop :=
  ∀ (c : Config) (k k' : RoundKey) (st : Word × Word),
    k.kL1 &&& 0xFCFCFCFC#32 = k'.kL1 &&& 0xFCFCFCFC#32 → k.kL2 &&& 0xFCFCFCFC#32 = k'.kL2 &&& 0xFCFCFCFC#32 →
    k.kR1 &&& 0xCFCFCFCF#32 = k'.kR1 &&& 0xCFCFCFCF#32 → k.kR2 &&& 0xCFCFCFCF#32 = k'.kR2 &&& 0xCFCFCFCF#32 →
      roundStep c k st = roundStep c k' st

/-- For every configuration whose networks are bijections, whatever the SBOX, and for every key: encryption of a
register pair is a bijection, and on bytes two distinct 8-byte blocks never encrypt to the same output under one key.
What a byte key outside the precondition of R162 stands for is the choice of the model, log entry 13. Rests on:
43_feistel.md R170 (bijection on blocks). -/
def Obligations.EncryptionIsABijectionOnBlocks : Prop :=
  ∀ c : Config, c.Legal →
    (∀ keys : List RoundKey, Function.Bijective (encryptWords c keys)) ∧
    ∀ key b b' : List Byte, b.length = 8 → b'.length = 8 → encryptBlock c b key = encryptBlock c b' key → b = b'

/-- With KEYOK = 1, ERR = 0 and the key bytes written, the commands bstart, round 0 to round KEYLEN/16 - 1 in order,
bfinish complete in the state that encblk completes in, every register and memory byte included; RES0, RES1 and PREV
are unchanged by either. The machine fixes the default parameters (log entry 2). Rests on: 43_feistel.md R168 (with
the default parameters). -/
def Obligations.SteppedEncryptionEqualsEncblk : Prop :=
  ∀ (s : State) (key : List Byte), s.err = false → keyOk wgcore s.keylen = true →
    s.keymem.readBytes 0 s.keylen.toNat = some key →
    ∃ t : State, execAll (encryptCommands (s.keylen.toNat / 16)) s = .next t ∧ exec .encblk s = .next t ∧
      t.res0 = s.res0 ∧ t.res1 = s.res1 ∧ t.prev0 = s.prev0 ∧ t.prev1 = s.prev1

/-- If ENCBLK or CBCBLK completes without error, a BFINISH from there answers the same state. If CBCBUF with DLEN
above 0 completes without error, a BFINISH from there differs only in DOUT, which becomes PREV, the last ciphertext
block. The machine fixes the default parameters (log entry 2). Rests on: 43_feistel.md R167. -/
def Obligations.BfinishAfterABlockRecomputesTheOutput : Prop :=
  ∀ s t : State, t.err = false →
    ((exec .encblk s = .next t ∨ exec .cbcblk s = .next t) → exec .bfinish t = .next t) ∧
    (exec .cbcbuf s = .next t → s.dlen.toNat ≠ 0 →
      exec .bfinish t = .next { t with dout0 := t.prev0, dout1 := t.prev1 })

/-- With KEYOK = 1, ERR = 0, the key written and any plaintext of at least one block: the host program cbcinit; ldblk
P_i; cbcblk for each i completes with DOUT and PREV the last block of encryptChained of the plaintext (so, for every
prefix, each C_i); and from any state without error that has the same key, and the plaintext in DATAMEM with DLEN its
length, CBCBUF completes with DATAMEM that ciphertext and the same PREV, SL and SR. The machine fixes the default
parameters (log entry 2). Rests on: 44_chaining.md R194; 44_chaining.md R190; 44_chaining.md R192; 44_chaining.md
R193. -/
def Obligations.ChainingFormsAgree : Prop :=
  ∀ (s : State) (key : List Byte) (blocks : List Block), s.err = false → keyOk wgcore s.keylen = true →
    s.keymem.readBytes 0 s.keylen.toNat = some key → blocks ≠ [] →
    let plain := (blocks.map blockBytes).flatten
    let cipher := encryptChained wgcore plain key
    ∃ t : State, run (chainProgram blocks) s = .next t ∧
      (t.dout0, t.dout1) = blockOf cipher (plain.length - 8) ∧ (t.prev0, t.prev1) = blockOf cipher (plain.length - 8) ∧
      ∀ u : State, u.err = false → u.keylen = s.keylen → u.keymem = s.keymem → u.dlen.toNat = plain.length →
        plain.length ≤ 64 → u.datamem.readBytes 0 u.dlen.toNat = some plain →
        ∃ v : State, exec .cbcbuf u = .next v ∧ v.datamem.readBytes 0 u.dlen.toNat = some cipher ∧
          v.prev0 = t.prev0 ∧ v.prev1 = t.prev1 ∧ v.sl = t.sl ∧ v.sr = t.sr

/-- For every legal configuration and key, and two plaintexts of the same number of blocks that differ in exactly one
block j: their ciphertext blocks before j are equal, and those from j on all differ. And for a held plaintext block,
its output changes if and only if the ciphertext block before it changes. The first ciphertext block is plain
encryptBlock of the first plaintext block. Rests on: R195. -/
def Obligations.PlaintextChangePropagatesDownTheChain : Prop :=
  ∀ (c : Config) (keys : List RoundKey), c.Legal →
    (∀ p prev prev' : Block,
      encryptWords c keys (xorBlock p prev) ≠ encryptWords c keys (xorBlock p prev') ↔ prev ≠ prev') ∧
    let cipher := fun bs : List Block => (chainStates c keys (0#32, 0#32) bs).map (finishBlock c)
    (∀ (p : Block) (ps : List Block), (cipher (p :: ps))[0]? = some (encryptWords c keys p)) ∧
    ∀ (blocks : List Block) (j : Nat) (p : Block), j < blocks.length → blocks[j]? ≠ some p →
      ∀ i, i < blocks.length →
        ((cipher blocks)[i]? = (cipher (blocks.set j p))[i]? ↔ i < j)

/-- For every state, in the error state too, and every byte string of at most 128 bytes whose length is a multiple of
4: the accesses of setkey all complete; KEYMEM then reads the string at indices 0 on and as before above it, KEYLEN is
its length, and nothing else of WGCORE changes. The machine fixes the default parameters (log entry 2). Rests on:
30_encoding.md R89 (setkey); 30_encoding.md R88; 20_memory.md R54. -/
def Obligations.SetkeyLoadsTheKey : Prop :=
  ∀ (s : State) (key : List Byte), key.length % 4 = 0 → key.length ≤ 128 →
    ∃ m : Memory, run (setkey key) s =
        .next { s with keymem := m, keylen := BitVec.ofNat 32 key.length, inputs := [], response := .done } ∧
      ∀ a, m.read a = if a < key.length then key[a]? else s.keymem.read a

/-- For every state without error, every key whose length is a positive multiple of 16 up to 128 and every plaintext
whose length is a multiple of 8 up to 64: the accesses of bootProgram all complete, with ERR = 0 and DATAMEM reading
encryptChained of the plaintext under the key. They take the steps of R242 in its order (read ID and CONFIG, load the
key and KEYLEN, read STATUS, load the plaintext and DLEN, write the CBCBUF word to CMD, read STATUS, read the buffer
back); that the key, the plaintext and the buffer move by word accesses is the choice of the model, log entry 13,
since R242 says only which bytes move. The machine fixes the default parameters (log entry 2). Rests on:
70_reset_and_hazards.md R242 (the steps and their order); 44_chaining.md R193; 20_memory.md R61. -/
def Obligations.BootSequenceEncryptsABuffer : Prop :=
  ∀ (s : State) (key plain : List Byte), s.err = false → key.length % 16 = 0 → key.length ≠ 0 → key.length ≤ 128 →
    plain.length % 8 = 0 → plain.length ≤ 64 →
    ∃ t : State, run (bootProgram key plain) s = .next t ∧ t.err = false ∧
      t.datamem.readBytes 0 plain.length = some (encryptChained wgcore plain key)
end

