-- ==== Sys2Proof/Laws/Memory.lean ====
section
/-! SUPPORT. The laws of the memory operations: what a read gives after a write, that every operation keeps the
canonical form, and what a read or write of several bytes amounts to byte by byte. -/

namespace Sys2Proof.Machine

@[simp] theorem Memory.read_nil (a : Nat) : Memory.read [] a = none := rfl

/-- A read after a write: the value written at the same index, and what was there before at every other. It holds of
every list, canonical or not. -/
theorem Memory.read_write (m : Memory) (a b : Nat) (v : Byte) :
    (m.write a v).read b = if b = a then some v else m.read b := by
  induction m with
  | nil => simp [Memory.write, Memory.read, eq_comm]
  | cons x m ih =>
    obtain ⟨k, w⟩ := x
    by_cases h1 : a < k
    · simp [Memory.write, Memory.read, h1, eq_comm]
    · by_cases h2 : a = k
      · subst h2
        by_cases h3 : b = a
        · simp [Memory.write, Memory.read, h3]
        · simp [Memory.write, Memory.read, h3, Ne.symm h3]
      · simp only [Memory.write, if_neg h1, if_neg h2, Memory.read, ih]
        by_cases h3 : b = a
        · subst h3
          simp [Ne.symm h2]
        · simp [h3]

@[simp] theorem Memory.read_write_self (m : Memory) (a : Nat) (v : Byte) : (m.write a v).read a = some v := by
  simp [Memory.read_write]

theorem Memory.read_write_of_ne (m : Memory) (a b : Nat) (v : Byte) (h : b ≠ a) : (m.write a v).read b = m.read b := by
  simp [Memory.read_write, h]

/-- The indices a write leaves: the old ones and the one written. -/
theorem Memory.mem_write (m : Memory) (a : Nat) (v : Byte) (x : Host.Cell) (h : x ∈ m.write a v) :
    x = (a, v) ∨ x ∈ m := by
  induction m with
  | nil => simpa [Memory.write] using h
  | cons y m ih =>
    obtain ⟨k, w⟩ := y
    simp only [Memory.write] at h
    split_ifs at h with h1 h2
    · simpa using h
    · simp only [List.mem_cons] at h ⊢
      tauto
    · simp only [List.mem_cons] at h ⊢
      rcases h with h | h
      · exact .inr (.inl h)
      · rcases ih h with h | h
        · exact .inl h
        · exact .inr (.inr h)

/-- A write keeps the canonical form. -/
theorem Memory.write_wf (m : Memory) (a : Nat) (v : Byte) (h : m.wf) : (m.write a v).wf := by
  induction m with
  | nil => simp [Memory.write, Memory.wf]
  | cons y m ih =>
    obtain ⟨k, w⟩ := y
    obtain ⟨h1, h2⟩ := List.pairwise_cons.mp h
    simp only [Memory.write]
    split_ifs with h3 h4
    · refine List.pairwise_cons.mpr ⟨fun x hx => ?_, h⟩
      rcases List.mem_cons.mp hx with rfl | hx
      · exact h3
      · exact lt_trans h3 (h1 x hx)
    · subst h4
      exact List.pairwise_cons.mpr ⟨h1, h2⟩
    · refine List.pairwise_cons.mpr ⟨fun x hx => ?_, ih h2⟩
      rcases Memory.mem_write m a v x hx with rfl | hx
      · show k < a
        omega
      · exact h1 x hx

/-- A write below the size keeps every index below it. -/
theorem Memory.write_within (m : Memory) (a : Nat) (v : Byte) (size : Nat) (h : m.within size) (ha : a < size) :
    (m.write a v).within size := by
  intro x hx
  rcases Memory.mem_write m a v x hx with rfl | hx
  · exact ha
  · exact h x hx

/-- Both memories have the canonical form after reset. -/
theorem State.reset_memories_wf : State.reset.keymem.wf ∧ State.reset.datamem.wf :=
  ⟨List.Pairwise.nil, List.Pairwise.nil⟩

@[simp] theorem Memory.writeBytes_nil (m : Memory) (a : Nat) : m.writeBytes a [] = m := rfl

@[simp] theorem Memory.writeBytes_cons (m : Memory) (a : Nat) (b : Byte) (bs : List Byte) :
    m.writeBytes a (b :: bs) = (m.write a b).writeBytes (a + 1) bs := rfl

/-- Writing bytes keeps the canonical form. -/
theorem Memory.writeBytes_wf (bs : List Byte) (m : Memory) (a : Nat) (h : m.wf) : (m.writeBytes a bs).wf := by
  induction bs generalizing m a with
  | nil => exact h
  | cons b bs ih => exact ih _ _ (Memory.write_wf m a b h)

/-- Writing bytes below the size keeps every index below it. -/
theorem Memory.writeBytes_within (bs : List Byte) (m : Memory) (a size : Nat) (h : m.within size)
    (ha : a + bs.length ≤ size) : (m.writeBytes a bs).within size := by
  induction bs generalizing m a with
  | nil => exact h
  | cons b bs ih =>
    simp only [List.length_cons] at ha
    exact ih _ _ (Memory.write_within m a b size h (by omega)) (by omega)

/-- A read after a write of several bytes: the byte written inside the range, what was there before outside it. -/
theorem Memory.read_writeBytes (bs : List Byte) (m : Memory) (a b : Nat) :
    (m.writeBytes a bs).read b = if a ≤ b ∧ b < a + bs.length then bs[b - a]? else m.read b := by
  induction bs generalizing m a with
  | nil =>
    rw [if_neg (by simp only [List.length_nil]; omega)]
    rfl
  | cons x bs ih =>
    rw [Memory.writeBytes_cons, ih, Memory.read_write]
    simp only [List.length_cons]
    by_cases h : b = a
    · subst h
      rw [if_neg (by omega), if_pos rfl, if_pos (by omega)]
      simp
    · by_cases h2 : a + 1 ≤ b ∧ b < a + 1 + bs.length
      · rw [if_pos h2, if_pos (by omega)]
        obtain ⟨d, rfl⟩ : ∃ d, b = a + 1 + d := ⟨b - (a + 1), by omega⟩
        rw [show a + 1 + d - (a + 1) = d by omega, show a + 1 + d - a = d + 1 by omega]
        simp
      · rw [if_neg h2, if_neg h, if_neg (by omega)]

/-- Everything a read of several bytes can answer: it answers `bs` exactly when `bs` has the length asked for and every
byte of the range is written with the byte of `bs`. -/
theorem Memory.readBytes_eq_some (n : Nat) (m : Memory) (a : Nat) (bs : List Byte) :
    m.readBytes a n = some bs ↔ bs.length = n ∧ ∀ i, i < n → m.read (a + i) = bs[i]? := by
  induction n generalizing a bs with
  | zero =>
    simp only [Memory.readBytes, Option.some.injEq]
    constructor
    · rintro rfl; simp
    · rintro ⟨h, -⟩; exact (List.length_eq_zero_iff.mp h).symm
  | succ n ih =>
    simp only [Memory.readBytes]
    constructor
    · intro h
      cases h1 : m.read a with
      | none => simp [h1] at h
      | some b =>
        cases h2 : m.readBytes (a + 1) n with
        | none => simp [h1, h2] at h
        | some cs =>
          rw [h1, h2] at h
          obtain rfl : b :: cs = bs := by simpa using h
          obtain ⟨hl, hr⟩ := (ih (a + 1) cs).mp h2
          refine ⟨by simp [hl], fun i hi => ?_⟩
          cases i with
          | zero => simpa using h1
          | succ i =>
            have := hr i (by omega)
            rw [show a + (i + 1) = a + 1 + i by omega, this]
            simp
    · rintro ⟨hl, hr⟩
      cases bs with
      | nil => simp at hl
      | cons b cs =>
        have h1 : m.read a = some b := by simpa using hr 0 (by omega)
        have h2 : m.readBytes (a + 1) n = some cs := by
          refine (ih (a + 1) cs).mpr ⟨by simpa using hl, fun i hi => ?_⟩
          have := hr (i + 1) (by omega)
          rw [show a + (i + 1) = a + 1 + i by omega] at this
          simpa using this
        rw [h1, h2]

/-- A read of several bytes answers nothing exactly when one of them is UNWRITTEN. -/
theorem Memory.readBytes_eq_none (n : Nat) (m : Memory) (a : Nat) :
    m.readBytes a n = none ↔ ∃ i, i < n ∧ m.read (a + i) = none := by
  induction n generalizing a with
  | zero => simp [Memory.readBytes]
  | succ n ih =>
    simp only [Memory.readBytes]
    cases h1 : m.read a with
    | none => simpa using ⟨0, by omega, by simpa using h1⟩
    | some b =>
      cases h2 : m.readBytes (a + 1) n with
      | none =>
        obtain ⟨i, hi, hr⟩ := (ih (a + 1)).mp h2
        simp only [true_iff]
        exact ⟨i + 1, by omega, by rw [← hr]; congr 1; omega⟩
      | some cs =>
        simp only [reduceCtorEq, false_iff, not_exists, not_and]
        intro i hi hr
        cases i with
        | zero => simp [h1] at hr
        | succ i =>
          have : m.readBytes (a + 1) n = none := (ih (a + 1)).mpr ⟨i, by omega, by rw [← hr]; congr 1; omega⟩
          simp [h2] at this

/-- The length of what a read of several bytes answers. -/
theorem Memory.length_of_readBytes (n : Nat) (m : Memory) (a : Nat) (bs : List Byte) (h : m.readBytes a n = some bs) :
    bs.length = n := ((Memory.readBytes_eq_some n m a bs).mp h).1

/-- Bytes written are read back. -/
theorem Memory.readBytes_writeBytes (bs : List Byte) (m : Memory) (a : Nat) :
    (m.writeBytes a bs).readBytes a bs.length = some bs := by
  refine (Memory.readBytes_eq_some _ _ _ _).mpr ⟨rfl, fun i hi => ?_⟩
  rw [Memory.read_writeBytes, if_pos (by omega)]
  congr 1
  omega

end Sys2Proof.Machine
end

