-- ==== Sys2Proof/Laws/State.lean ====
section
/-! SUPPORT. What every field is after every named update of the state: one lemma per field per update, true by rfl. -/

namespace Sys2Proof.Machine

/-! ### `State.setRes0` -/

@[simp] theorem State.setRes0_keylen (s : State) (v : Word) : (s.setRes0 v).keylen = s.keylen := rfl
@[simp] theorem State.setRes0_dlen (s : State) (v : Word) : (s.setRes0 v).dlen = s.dlen := rfl
@[simp] theorem State.setRes0_opa (s : State) (v : Word) : (s.setRes0 v).opa = s.opa := rfl
@[simp] theorem State.setRes0_opb (s : State) (v : Word) : (s.setRes0 v).opb = s.opb := rfl
@[simp] theorem State.setRes0_res0 (s : State) (v : Word) : (s.setRes0 v).res0 = v := rfl
@[simp] theorem State.setRes0_res1 (s : State) (v : Word) : (s.setRes0 v).res1 = s.res1 := rfl
@[simp] theorem State.setRes0_sl (s : State) (v : Word) : (s.setRes0 v).sl = s.sl := rfl
@[simp] theorem State.setRes0_sr (s : State) (v : Word) : (s.setRes0 v).sr = s.sr := rfl
@[simp] theorem State.setRes0_prev0 (s : State) (v : Word) : (s.setRes0 v).prev0 = s.prev0 := rfl
@[simp] theorem State.setRes0_prev1 (s : State) (v : Word) : (s.setRes0 v).prev1 = s.prev1 := rfl
@[simp] theorem State.setRes0_din0 (s : State) (v : Word) : (s.setRes0 v).din0 = s.din0 := rfl
@[simp] theorem State.setRes0_din1 (s : State) (v : Word) : (s.setRes0 v).din1 = s.din1 := rfl
@[simp] theorem State.setRes0_dout0 (s : State) (v : Word) : (s.setRes0 v).dout0 = s.dout0 := rfl
@[simp] theorem State.setRes0_dout1 (s : State) (v : Word) : (s.setRes0 v).dout1 = s.dout1 := rfl
@[simp] theorem State.setRes0_err (s : State) (v : Word) : (s.setRes0 v).err = s.err := rfl
@[simp] theorem State.setRes0_ecode (s : State) (v : Word) : (s.setRes0 v).ecode = s.ecode := rfl
@[simp] theorem State.setRes0_keymem (s : State) (v : Word) : (s.setRes0 v).keymem = s.keymem := rfl
@[simp] theorem State.setRes0_datamem (s : State) (v : Word) : (s.setRes0 v).datamem = s.datamem := rfl
@[simp] theorem State.setRes0_inputs (s : State) (v : Word) : (s.setRes0 v).inputs = s.inputs := rfl
@[simp] theorem State.setRes0_response (s : State) (v : Word) : (s.setRes0 v).response = s.response := rfl

/-! ### `State.setRes` -/

@[simp] theorem State.setRes_keylen (s : State) (p : Word × Word) : (s.setRes p).keylen = s.keylen := rfl
@[simp] theorem State.setRes_dlen (s : State) (p : Word × Word) : (s.setRes p).dlen = s.dlen := rfl
@[simp] theorem State.setRes_opa (s : State) (p : Word × Word) : (s.setRes p).opa = s.opa := rfl
@[simp] theorem State.setRes_opb (s : State) (p : Word × Word) : (s.setRes p).opb = s.opb := rfl
@[simp] theorem State.setRes_res0 (s : State) (p : Word × Word) : (s.setRes p).res0 = p.1 := rfl
@[simp] theorem State.setRes_res1 (s : State) (p : Word × Word) : (s.setRes p).res1 = p.2 := rfl
@[simp] theorem State.setRes_sl (s : State) (p : Word × Word) : (s.setRes p).sl = s.sl := rfl
@[simp] theorem State.setRes_sr (s : State) (p : Word × Word) : (s.setRes p).sr = s.sr := rfl
@[simp] theorem State.setRes_prev0 (s : State) (p : Word × Word) : (s.setRes p).prev0 = s.prev0 := rfl
@[simp] theorem State.setRes_prev1 (s : State) (p : Word × Word) : (s.setRes p).prev1 = s.prev1 := rfl
@[simp] theorem State.setRes_din0 (s : State) (p : Word × Word) : (s.setRes p).din0 = s.din0 := rfl
@[simp] theorem State.setRes_din1 (s : State) (p : Word × Word) : (s.setRes p).din1 = s.din1 := rfl
@[simp] theorem State.setRes_dout0 (s : State) (p : Word × Word) : (s.setRes p).dout0 = s.dout0 := rfl
@[simp] theorem State.setRes_dout1 (s : State) (p : Word × Word) : (s.setRes p).dout1 = s.dout1 := rfl
@[simp] theorem State.setRes_err (s : State) (p : Word × Word) : (s.setRes p).err = s.err := rfl
@[simp] theorem State.setRes_ecode (s : State) (p : Word × Word) : (s.setRes p).ecode = s.ecode := rfl
@[simp] theorem State.setRes_keymem (s : State) (p : Word × Word) : (s.setRes p).keymem = s.keymem := rfl
@[simp] theorem State.setRes_datamem (s : State) (p : Word × Word) : (s.setRes p).datamem = s.datamem := rfl
@[simp] theorem State.setRes_inputs (s : State) (p : Word × Word) : (s.setRes p).inputs = s.inputs := rfl
@[simp] theorem State.setRes_response (s : State) (p : Word × Word) : (s.setRes p).response = s.response := rfl

/-! ### `State.setRound` -/

@[simp] theorem State.setRound_keylen (s : State) (p : Word × Word) : (s.setRound p).keylen = s.keylen := rfl
@[simp] theorem State.setRound_dlen (s : State) (p : Word × Word) : (s.setRound p).dlen = s.dlen := rfl
@[simp] theorem State.setRound_opa (s : State) (p : Word × Word) : (s.setRound p).opa = s.opa := rfl
@[simp] theorem State.setRound_opb (s : State) (p : Word × Word) : (s.setRound p).opb = s.opb := rfl
@[simp] theorem State.setRound_res0 (s : State) (p : Word × Word) : (s.setRound p).res0 = s.res0 := rfl
@[simp] theorem State.setRound_res1 (s : State) (p : Word × Word) : (s.setRound p).res1 = s.res1 := rfl
@[simp] theorem State.setRound_sl (s : State) (p : Word × Word) : (s.setRound p).sl = p.1 := rfl
@[simp] theorem State.setRound_sr (s : State) (p : Word × Word) : (s.setRound p).sr = p.2 := rfl
@[simp] theorem State.setRound_prev0 (s : State) (p : Word × Word) : (s.setRound p).prev0 = s.prev0 := rfl
@[simp] theorem State.setRound_prev1 (s : State) (p : Word × Word) : (s.setRound p).prev1 = s.prev1 := rfl
@[simp] theorem State.setRound_din0 (s : State) (p : Word × Word) : (s.setRound p).din0 = s.din0 := rfl
@[simp] theorem State.setRound_din1 (s : State) (p : Word × Word) : (s.setRound p).din1 = s.din1 := rfl
@[simp] theorem State.setRound_dout0 (s : State) (p : Word × Word) : (s.setRound p).dout0 = s.dout0 := rfl
@[simp] theorem State.setRound_dout1 (s : State) (p : Word × Word) : (s.setRound p).dout1 = s.dout1 := rfl
@[simp] theorem State.setRound_err (s : State) (p : Word × Word) : (s.setRound p).err = s.err := rfl
@[simp] theorem State.setRound_ecode (s : State) (p : Word × Word) : (s.setRound p).ecode = s.ecode := rfl
@[simp] theorem State.setRound_keymem (s : State) (p : Word × Word) : (s.setRound p).keymem = s.keymem := rfl
@[simp] theorem State.setRound_datamem (s : State) (p : Word × Word) : (s.setRound p).datamem = s.datamem := rfl
@[simp] theorem State.setRound_inputs (s : State) (p : Word × Word) : (s.setRound p).inputs = s.inputs := rfl
@[simp] theorem State.setRound_response (s : State) (p : Word × Word) : (s.setRound p).response = s.response := rfl

/-! ### `State.setPrev` -/

@[simp] theorem State.setPrev_keylen (s : State) (b : Block) : (s.setPrev b).keylen = s.keylen := rfl
@[simp] theorem State.setPrev_dlen (s : State) (b : Block) : (s.setPrev b).dlen = s.dlen := rfl
@[simp] theorem State.setPrev_opa (s : State) (b : Block) : (s.setPrev b).opa = s.opa := rfl
@[simp] theorem State.setPrev_opb (s : State) (b : Block) : (s.setPrev b).opb = s.opb := rfl
@[simp] theorem State.setPrev_res0 (s : State) (b : Block) : (s.setPrev b).res0 = s.res0 := rfl
@[simp] theorem State.setPrev_res1 (s : State) (b : Block) : (s.setPrev b).res1 = s.res1 := rfl
@[simp] theorem State.setPrev_sl (s : State) (b : Block) : (s.setPrev b).sl = s.sl := rfl
@[simp] theorem State.setPrev_sr (s : State) (b : Block) : (s.setPrev b).sr = s.sr := rfl
@[simp] theorem State.setPrev_prev0 (s : State) (b : Block) : (s.setPrev b).prev0 = b.1 := rfl
@[simp] theorem State.setPrev_prev1 (s : State) (b : Block) : (s.setPrev b).prev1 = b.2 := rfl
@[simp] theorem State.setPrev_din0 (s : State) (b : Block) : (s.setPrev b).din0 = s.din0 := rfl
@[simp] theorem State.setPrev_din1 (s : State) (b : Block) : (s.setPrev b).din1 = s.din1 := rfl
@[simp] theorem State.setPrev_dout0 (s : State) (b : Block) : (s.setPrev b).dout0 = s.dout0 := rfl
@[simp] theorem State.setPrev_dout1 (s : State) (b : Block) : (s.setPrev b).dout1 = s.dout1 := rfl
@[simp] theorem State.setPrev_err (s : State) (b : Block) : (s.setPrev b).err = s.err := rfl
@[simp] theorem State.setPrev_ecode (s : State) (b : Block) : (s.setPrev b).ecode = s.ecode := rfl
@[simp] theorem State.setPrev_keymem (s : State) (b : Block) : (s.setPrev b).keymem = s.keymem := rfl
@[simp] theorem State.setPrev_datamem (s : State) (b : Block) : (s.setPrev b).datamem = s.datamem := rfl
@[simp] theorem State.setPrev_inputs (s : State) (b : Block) : (s.setPrev b).inputs = s.inputs := rfl
@[simp] theorem State.setPrev_response (s : State) (b : Block) : (s.setPrev b).response = s.response := rfl

/-! ### `State.setDout` -/

@[simp] theorem State.setDout_keylen (s : State) (b : Block) : (s.setDout b).keylen = s.keylen := rfl
@[simp] theorem State.setDout_dlen (s : State) (b : Block) : (s.setDout b).dlen = s.dlen := rfl
@[simp] theorem State.setDout_opa (s : State) (b : Block) : (s.setDout b).opa = s.opa := rfl
@[simp] theorem State.setDout_opb (s : State) (b : Block) : (s.setDout b).opb = s.opb := rfl
@[simp] theorem State.setDout_res0 (s : State) (b : Block) : (s.setDout b).res0 = s.res0 := rfl
@[simp] theorem State.setDout_res1 (s : State) (b : Block) : (s.setDout b).res1 = s.res1 := rfl
@[simp] theorem State.setDout_sl (s : State) (b : Block) : (s.setDout b).sl = s.sl := rfl
@[simp] theorem State.setDout_sr (s : State) (b : Block) : (s.setDout b).sr = s.sr := rfl
@[simp] theorem State.setDout_prev0 (s : State) (b : Block) : (s.setDout b).prev0 = s.prev0 := rfl
@[simp] theorem State.setDout_prev1 (s : State) (b : Block) : (s.setDout b).prev1 = s.prev1 := rfl
@[simp] theorem State.setDout_din0 (s : State) (b : Block) : (s.setDout b).din0 = s.din0 := rfl
@[simp] theorem State.setDout_din1 (s : State) (b : Block) : (s.setDout b).din1 = s.din1 := rfl
@[simp] theorem State.setDout_dout0 (s : State) (b : Block) : (s.setDout b).dout0 = b.1 := rfl
@[simp] theorem State.setDout_dout1 (s : State) (b : Block) : (s.setDout b).dout1 = b.2 := rfl
@[simp] theorem State.setDout_err (s : State) (b : Block) : (s.setDout b).err = s.err := rfl
@[simp] theorem State.setDout_ecode (s : State) (b : Block) : (s.setDout b).ecode = s.ecode := rfl
@[simp] theorem State.setDout_keymem (s : State) (b : Block) : (s.setDout b).keymem = s.keymem := rfl
@[simp] theorem State.setDout_datamem (s : State) (b : Block) : (s.setDout b).datamem = s.datamem := rfl
@[simp] theorem State.setDout_inputs (s : State) (b : Block) : (s.setDout b).inputs = s.inputs := rfl
@[simp] theorem State.setDout_response (s : State) (b : Block) : (s.setDout b).response = s.response := rfl

/-! ### `State.setKeymem` -/

@[simp] theorem State.setKeymem_keylen (s : State) (m : Memory) : (s.setKeymem m).keylen = s.keylen := rfl
@[simp] theorem State.setKeymem_dlen (s : State) (m : Memory) : (s.setKeymem m).dlen = s.dlen := rfl
@[simp] theorem State.setKeymem_opa (s : State) (m : Memory) : (s.setKeymem m).opa = s.opa := rfl
@[simp] theorem State.setKeymem_opb (s : State) (m : Memory) : (s.setKeymem m).opb = s.opb := rfl
@[simp] theorem State.setKeymem_res0 (s : State) (m : Memory) : (s.setKeymem m).res0 = s.res0 := rfl
@[simp] theorem State.setKeymem_res1 (s : State) (m : Memory) : (s.setKeymem m).res1 = s.res1 := rfl
@[simp] theorem State.setKeymem_sl (s : State) (m : Memory) : (s.setKeymem m).sl = s.sl := rfl
@[simp] theorem State.setKeymem_sr (s : State) (m : Memory) : (s.setKeymem m).sr = s.sr := rfl
@[simp] theorem State.setKeymem_prev0 (s : State) (m : Memory) : (s.setKeymem m).prev0 = s.prev0 := rfl
@[simp] theorem State.setKeymem_prev1 (s : State) (m : Memory) : (s.setKeymem m).prev1 = s.prev1 := rfl
@[simp] theorem State.setKeymem_din0 (s : State) (m : Memory) : (s.setKeymem m).din0 = s.din0 := rfl
@[simp] theorem State.setKeymem_din1 (s : State) (m : Memory) : (s.setKeymem m).din1 = s.din1 := rfl
@[simp] theorem State.setKeymem_dout0 (s : State) (m : Memory) : (s.setKeymem m).dout0 = s.dout0 := rfl
@[simp] theorem State.setKeymem_dout1 (s : State) (m : Memory) : (s.setKeymem m).dout1 = s.dout1 := rfl
@[simp] theorem State.setKeymem_err (s : State) (m : Memory) : (s.setKeymem m).err = s.err := rfl
@[simp] theorem State.setKeymem_ecode (s : State) (m : Memory) : (s.setKeymem m).ecode = s.ecode := rfl
@[simp] theorem State.setKeymem_keymem (s : State) (m : Memory) : (s.setKeymem m).keymem = m := rfl
@[simp] theorem State.setKeymem_datamem (s : State) (m : Memory) : (s.setKeymem m).datamem = s.datamem := rfl
@[simp] theorem State.setKeymem_inputs (s : State) (m : Memory) : (s.setKeymem m).inputs = s.inputs := rfl
@[simp] theorem State.setKeymem_response (s : State) (m : Memory) : (s.setKeymem m).response = s.response := rfl

/-! ### `State.setDatamem` -/

@[simp] theorem State.setDatamem_keylen (s : State) (m : Memory) : (s.setDatamem m).keylen = s.keylen := rfl
@[simp] theorem State.setDatamem_dlen (s : State) (m : Memory) : (s.setDatamem m).dlen = s.dlen := rfl
@[simp] theorem State.setDatamem_opa (s : State) (m : Memory) : (s.setDatamem m).opa = s.opa := rfl
@[simp] theorem State.setDatamem_opb (s : State) (m : Memory) : (s.setDatamem m).opb = s.opb := rfl
@[simp] theorem State.setDatamem_res0 (s : State) (m : Memory) : (s.setDatamem m).res0 = s.res0 := rfl
@[simp] theorem State.setDatamem_res1 (s : State) (m : Memory) : (s.setDatamem m).res1 = s.res1 := rfl
@[simp] theorem State.setDatamem_sl (s : State) (m : Memory) : (s.setDatamem m).sl = s.sl := rfl
@[simp] theorem State.setDatamem_sr (s : State) (m : Memory) : (s.setDatamem m).sr = s.sr := rfl
@[simp] theorem State.setDatamem_prev0 (s : State) (m : Memory) : (s.setDatamem m).prev0 = s.prev0 := rfl
@[simp] theorem State.setDatamem_prev1 (s : State) (m : Memory) : (s.setDatamem m).prev1 = s.prev1 := rfl
@[simp] theorem State.setDatamem_din0 (s : State) (m : Memory) : (s.setDatamem m).din0 = s.din0 := rfl
@[simp] theorem State.setDatamem_din1 (s : State) (m : Memory) : (s.setDatamem m).din1 = s.din1 := rfl
@[simp] theorem State.setDatamem_dout0 (s : State) (m : Memory) : (s.setDatamem m).dout0 = s.dout0 := rfl
@[simp] theorem State.setDatamem_dout1 (s : State) (m : Memory) : (s.setDatamem m).dout1 = s.dout1 := rfl
@[simp] theorem State.setDatamem_err (s : State) (m : Memory) : (s.setDatamem m).err = s.err := rfl
@[simp] theorem State.setDatamem_ecode (s : State) (m : Memory) : (s.setDatamem m).ecode = s.ecode := rfl
@[simp] theorem State.setDatamem_keymem (s : State) (m : Memory) : (s.setDatamem m).keymem = s.keymem := rfl
@[simp] theorem State.setDatamem_datamem (s : State) (m : Memory) : (s.setDatamem m).datamem = m := rfl
@[simp] theorem State.setDatamem_inputs (s : State) (m : Memory) : (s.setDatamem m).inputs = s.inputs := rfl
@[simp] theorem State.setDatamem_response (s : State) (m : Memory) : (s.setDatamem m).response = s.response := rfl

/-! ### `State.respond` -/

@[simp] theorem State.respond_keylen (s : State) (r : Response) : (s.respond r).keylen = s.keylen := rfl
@[simp] theorem State.respond_dlen (s : State) (r : Response) : (s.respond r).dlen = s.dlen := rfl
@[simp] theorem State.respond_opa (s : State) (r : Response) : (s.respond r).opa = s.opa := rfl
@[simp] theorem State.respond_opb (s : State) (r : Response) : (s.respond r).opb = s.opb := rfl
@[simp] theorem State.respond_res0 (s : State) (r : Response) : (s.respond r).res0 = s.res0 := rfl
@[simp] theorem State.respond_res1 (s : State) (r : Response) : (s.respond r).res1 = s.res1 := rfl
@[simp] theorem State.respond_sl (s : State) (r : Response) : (s.respond r).sl = s.sl := rfl
@[simp] theorem State.respond_sr (s : State) (r : Response) : (s.respond r).sr = s.sr := rfl
@[simp] theorem State.respond_prev0 (s : State) (r : Response) : (s.respond r).prev0 = s.prev0 := rfl
@[simp] theorem State.respond_prev1 (s : State) (r : Response) : (s.respond r).prev1 = s.prev1 := rfl
@[simp] theorem State.respond_din0 (s : State) (r : Response) : (s.respond r).din0 = s.din0 := rfl
@[simp] theorem State.respond_din1 (s : State) (r : Response) : (s.respond r).din1 = s.din1 := rfl
@[simp] theorem State.respond_dout0 (s : State) (r : Response) : (s.respond r).dout0 = s.dout0 := rfl
@[simp] theorem State.respond_dout1 (s : State) (r : Response) : (s.respond r).dout1 = s.dout1 := rfl
@[simp] theorem State.respond_err (s : State) (r : Response) : (s.respond r).err = s.err := rfl
@[simp] theorem State.respond_ecode (s : State) (r : Response) : (s.respond r).ecode = s.ecode := rfl
@[simp] theorem State.respond_keymem (s : State) (r : Response) : (s.respond r).keymem = s.keymem := rfl
@[simp] theorem State.respond_datamem (s : State) (r : Response) : (s.respond r).datamem = s.datamem := rfl
@[simp] theorem State.respond_inputs (s : State) (r : Response) : (s.respond r).inputs = s.inputs := rfl
@[simp] theorem State.respond_response (s : State) (r : Response) : (s.respond r).response = r := rfl

/-! ### `State.setInputs` -/

@[simp] theorem State.setInputs_keylen (s : State) (l : List Input) : (s.setInputs l).keylen = s.keylen := rfl
@[simp] theorem State.setInputs_dlen (s : State) (l : List Input) : (s.setInputs l).dlen = s.dlen := rfl
@[simp] theorem State.setInputs_opa (s : State) (l : List Input) : (s.setInputs l).opa = s.opa := rfl
@[simp] theorem State.setInputs_opb (s : State) (l : List Input) : (s.setInputs l).opb = s.opb := rfl
@[simp] theorem State.setInputs_res0 (s : State) (l : List Input) : (s.setInputs l).res0 = s.res0 := rfl
@[simp] theorem State.setInputs_res1 (s : State) (l : List Input) : (s.setInputs l).res1 = s.res1 := rfl
@[simp] theorem State.setInputs_sl (s : State) (l : List Input) : (s.setInputs l).sl = s.sl := rfl
@[simp] theorem State.setInputs_sr (s : State) (l : List Input) : (s.setInputs l).sr = s.sr := rfl
@[simp] theorem State.setInputs_prev0 (s : State) (l : List Input) : (s.setInputs l).prev0 = s.prev0 := rfl
@[simp] theorem State.setInputs_prev1 (s : State) (l : List Input) : (s.setInputs l).prev1 = s.prev1 := rfl
@[simp] theorem State.setInputs_din0 (s : State) (l : List Input) : (s.setInputs l).din0 = s.din0 := rfl
@[simp] theorem State.setInputs_din1 (s : State) (l : List Input) : (s.setInputs l).din1 = s.din1 := rfl
@[simp] theorem State.setInputs_dout0 (s : State) (l : List Input) : (s.setInputs l).dout0 = s.dout0 := rfl
@[simp] theorem State.setInputs_dout1 (s : State) (l : List Input) : (s.setInputs l).dout1 = s.dout1 := rfl
@[simp] theorem State.setInputs_err (s : State) (l : List Input) : (s.setInputs l).err = s.err := rfl
@[simp] theorem State.setInputs_ecode (s : State) (l : List Input) : (s.setInputs l).ecode = s.ecode := rfl
@[simp] theorem State.setInputs_keymem (s : State) (l : List Input) : (s.setInputs l).keymem = s.keymem := rfl
@[simp] theorem State.setInputs_datamem (s : State) (l : List Input) : (s.setInputs l).datamem = s.datamem := rfl
@[simp] theorem State.setInputs_inputs (s : State) (l : List Input) : (s.setInputs l).inputs = l := rfl
@[simp] theorem State.setInputs_response (s : State) (l : List Input) : (s.setInputs l).response = s.response := rfl

/-! ### `State.raise` -/

@[simp] theorem State.raise_keylen (s : State) (v : Violation) : (s.raise v).keylen = s.keylen := rfl
@[simp] theorem State.raise_dlen (s : State) (v : Violation) : (s.raise v).dlen = s.dlen := rfl
@[simp] theorem State.raise_opa (s : State) (v : Violation) : (s.raise v).opa = s.opa := rfl
@[simp] theorem State.raise_opb (s : State) (v : Violation) : (s.raise v).opb = s.opb := rfl
@[simp] theorem State.raise_res0 (s : State) (v : Violation) : (s.raise v).res0 = s.res0 := rfl
@[simp] theorem State.raise_res1 (s : State) (v : Violation) : (s.raise v).res1 = s.res1 := rfl
@[simp] theorem State.raise_sl (s : State) (v : Violation) : (s.raise v).sl = s.sl := rfl
@[simp] theorem State.raise_sr (s : State) (v : Violation) : (s.raise v).sr = s.sr := rfl
@[simp] theorem State.raise_prev0 (s : State) (v : Violation) : (s.raise v).prev0 = s.prev0 := rfl
@[simp] theorem State.raise_prev1 (s : State) (v : Violation) : (s.raise v).prev1 = s.prev1 := rfl
@[simp] theorem State.raise_din0 (s : State) (v : Violation) : (s.raise v).din0 = s.din0 := rfl
@[simp] theorem State.raise_din1 (s : State) (v : Violation) : (s.raise v).din1 = s.din1 := rfl
@[simp] theorem State.raise_dout0 (s : State) (v : Violation) : (s.raise v).dout0 = s.dout0 := rfl
@[simp] theorem State.raise_dout1 (s : State) (v : Violation) : (s.raise v).dout1 = s.dout1 := rfl
@[simp] theorem State.raise_err (s : State) (v : Violation) : (s.raise v).err = true := rfl
@[simp] theorem State.raise_ecode (s : State) (v : Violation) : (s.raise v).ecode = violationCode v := rfl
@[simp] theorem State.raise_keymem (s : State) (v : Violation) : (s.raise v).keymem = s.keymem := rfl
@[simp] theorem State.raise_datamem (s : State) (v : Violation) : (s.raise v).datamem = s.datamem := rfl
@[simp] theorem State.raise_inputs (s : State) (v : Violation) : (s.raise v).inputs = s.inputs := rfl
@[simp] theorem State.raise_response (s : State) (v : Violation) : (s.raise v).response = s.response := rfl

/-! ### `State.softReset` -/

@[simp] theorem State.softReset_keylen (s : State) : s.softReset.keylen = 0#32 := rfl
@[simp] theorem State.softReset_dlen (s : State) : s.softReset.dlen = 0#32 := rfl
@[simp] theorem State.softReset_opa (s : State) : s.softReset.opa = 0#32 := rfl
@[simp] theorem State.softReset_opb (s : State) : s.softReset.opb = 0#32 := rfl
@[simp] theorem State.softReset_res0 (s : State) : s.softReset.res0 = 0#32 := rfl
@[simp] theorem State.softReset_res1 (s : State) : s.softReset.res1 = 0#32 := rfl
@[simp] theorem State.softReset_sl (s : State) : s.softReset.sl = 0#32 := rfl
@[simp] theorem State.softReset_sr (s : State) : s.softReset.sr = 0#32 := rfl
@[simp] theorem State.softReset_prev0 (s : State) : s.softReset.prev0 = 0#32 := rfl
@[simp] theorem State.softReset_prev1 (s : State) : s.softReset.prev1 = 0#32 := rfl
@[simp] theorem State.softReset_din0 (s : State) : s.softReset.din0 = 0#32 := rfl
@[simp] theorem State.softReset_din1 (s : State) : s.softReset.din1 = 0#32 := rfl
@[simp] theorem State.softReset_dout0 (s : State) : s.softReset.dout0 = 0#32 := rfl
@[simp] theorem State.softReset_dout1 (s : State) : s.softReset.dout1 = 0#32 := rfl
@[simp] theorem State.softReset_err (s : State) : s.softReset.err = false := rfl
@[simp] theorem State.softReset_ecode (s : State) : s.softReset.ecode = 0#4 := rfl
@[simp] theorem State.softReset_keymem (s : State) : s.softReset.keymem = s.keymem := rfl
@[simp] theorem State.softReset_datamem (s : State) : s.softReset.datamem = s.datamem := rfl
@[simp] theorem State.softReset_inputs (s : State) : s.softReset.inputs = s.inputs := rfl
@[simp] theorem State.softReset_response (s : State) : s.softReset.response = s.response := rfl

/-! ### `State.hardReset` -/

@[simp] theorem State.hardReset_keylen (s : State) : s.hardReset.keylen = 0#32 := rfl
@[simp] theorem State.hardReset_dlen (s : State) : s.hardReset.dlen = 0#32 := rfl
@[simp] theorem State.hardReset_opa (s : State) : s.hardReset.opa = 0#32 := rfl
@[simp] theorem State.hardReset_opb (s : State) : s.hardReset.opb = 0#32 := rfl
@[simp] theorem State.hardReset_res0 (s : State) : s.hardReset.res0 = 0#32 := rfl
@[simp] theorem State.hardReset_res1 (s : State) : s.hardReset.res1 = 0#32 := rfl
@[simp] theorem State.hardReset_sl (s : State) : s.hardReset.sl = 0#32 := rfl
@[simp] theorem State.hardReset_sr (s : State) : s.hardReset.sr = 0#32 := rfl
@[simp] theorem State.hardReset_prev0 (s : State) : s.hardReset.prev0 = 0#32 := rfl
@[simp] theorem State.hardReset_prev1 (s : State) : s.hardReset.prev1 = 0#32 := rfl
@[simp] theorem State.hardReset_din0 (s : State) : s.hardReset.din0 = 0#32 := rfl
@[simp] theorem State.hardReset_din1 (s : State) : s.hardReset.din1 = 0#32 := rfl
@[simp] theorem State.hardReset_dout0 (s : State) : s.hardReset.dout0 = 0#32 := rfl
@[simp] theorem State.hardReset_dout1 (s : State) : s.hardReset.dout1 = 0#32 := rfl
@[simp] theorem State.hardReset_err (s : State) : s.hardReset.err = false := rfl
@[simp] theorem State.hardReset_ecode (s : State) : s.hardReset.ecode = 0#4 := rfl
@[simp] theorem State.hardReset_keymem (s : State) : s.hardReset.keymem = [] := rfl
@[simp] theorem State.hardReset_datamem (s : State) : s.hardReset.datamem = [] := rfl
@[simp] theorem State.hardReset_inputs (s : State) : s.hardReset.inputs = s.inputs := rfl
@[simp] theorem State.hardReset_response (s : State) : s.hardReset.response = .idle := rfl

/-! ### `State.setReg` and `State.reg` -/

@[simp] theorem State.setReg_err (s : State) (r : Reg) (v : Word) : (s.setReg r v).err = s.err := by
  cases r <;> rfl
@[simp] theorem State.setReg_ecode (s : State) (r : Reg) (v : Word) : (s.setReg r v).ecode = s.ecode := by
  cases r <;> rfl
@[simp] theorem State.setReg_keymem (s : State) (r : Reg) (v : Word) : (s.setReg r v).keymem = s.keymem := by
  cases r <;> rfl
@[simp] theorem State.setReg_datamem (s : State) (r : Reg) (v : Word) : (s.setReg r v).datamem = s.datamem := by
  cases r <;> rfl
@[simp] theorem State.setReg_inputs (s : State) (r : Reg) (v : Word) : (s.setReg r v).inputs = s.inputs := by
  cases r <;> rfl
@[simp] theorem State.setReg_response (s : State) (r : Reg) (v : Word) : (s.setReg r v).response = s.response := by
  cases r <;> rfl

@[simp] theorem State.reg_setReg_self (s : State) (r : Reg) (v : Word) : (s.setReg r v).reg r = v := by
  cases r <;> rfl

theorem State.reg_setReg_of_ne (s : State) (r r' : Reg) (v : Word) (h : r' ≠ r) : (s.setReg r v).reg r' = s.reg r' := by
  cases r <;> cases r' <;> first | rfl | exact absurd rfl h

/-- Two states are equal when their registers, flags, memories and the model's own fields are. -/
theorem State.ext_of_reg (s t : State) (hreg : ∀ r, s.reg r = t.reg r) (herr : s.err = t.err) (hcode : s.ecode = t.ecode)
    (hkey : s.keymem = t.keymem) (hdata : s.datamem = t.datamem) (hin : s.inputs = t.inputs)
    (hresp : s.response = t.response) : s = t := by
  cases s; cases t
  have h := fun r => hreg r
  have h1 := h .keylen; have h2 := h .dlen; have h3 := h .opa; have h4 := h .opb; have h5 := h .res0
  have h6 := h .res1; have h7 := h .sl; have h8 := h .sr; have h9 := h .prev0; have h10 := h .prev1
  have h11 := h .din0; have h12 := h .din1; have h13 := h .dout0; have h14 := h .dout1
  simp only [State.reg] at h1 h2 h3 h4 h5 h6 h7 h8 h9 h10 h11 h12 h13 h14 herr hcode hkey hdata hin hresp
  subst_vars
  rfl

end Sys2Proof.Machine
end

