-- ==== Sys2Proof/Laws/Ops.lean ====
section
/-! SUPPORT. What the shared operations of commands can do, each said once: the common order of 60_exceptions.md rule
R211, the reads that may meet an UNWRITTEN byte, and the byte packing. -/

namespace Sys2Proof.Machine

@[simp] theorem command_of_err {s : State} (h : s.err = true) (body : Host.Outcome State Fault Refusal) :
    command s body = .next s := by simp [command, h]

@[simp] theorem command_of_ok {s : State} (h : s.err = false) (body : Host.Outcome State Fault Refusal) :
    command s body = body := by simp [command, h]

/-- Everything `command` can answer. -/
theorem command_cases (s : State) (body : Host.Outcome State Fault Refusal) :
    (s.err = true ∧ command s body = .next s) ∨ (s.err = false ∧ command s body = body) := by
  cases h : s.err with
  | true => exact .inl ⟨rfl, command_of_err h body⟩
  | false => exact .inr ⟨rfl, command_of_ok h body⟩

theorem keyCommand_of_err {c : Config} {s : State} (h : s.err = true) (body : Host.Outcome State Fault Refusal) :
    keyCommand c s body = .next s := command_of_err h _

theorem keyCommand_of_badKey {c : Config} {s : State} (h : s.err = false) (hk : keyOk c s.keylen = false)
    (body : Host.Outcome State Fault Refusal) : keyCommand c s body = .next (s.raise .keylenInvalid) := by
  simp [keyCommand, h, hk]

theorem keyCommand_of_ok {c : Config} {s : State} (h : s.err = false) (hk : keyOk c s.keylen = true)
    (body : Host.Outcome State Fault Refusal) : keyCommand c s body = body := by
  simp [keyCommand, h, hk]

/-- Everything `keyCommand` can answer. -/
theorem keyCommand_cases (c : Config) (s : State) (body : Host.Outcome State Fault Refusal) :
    (s.err = true ∧ keyCommand c s body = .next s) ∨
    (s.err = false ∧ keyOk c s.keylen = false ∧ keyCommand c s body = .next (s.raise .keylenInvalid)) ∨
    (s.err = false ∧ keyOk c s.keylen = true ∧ keyCommand c s body = body) := by
  cases h : s.err with
  | true => exact .inl ⟨rfl, keyCommand_of_err h body⟩
  | false =>
    cases hk : keyOk c s.keylen with
    | false => exact .inr (.inl ⟨rfl, rfl, keyCommand_of_badKey h hk body⟩)
    | true => exact .inr (.inr ⟨rfl, rfl, keyCommand_of_ok h hk body⟩)

@[simp] theorem needBytes_none {α : Type} (body : α → Host.Outcome State Fault Refusal) :
    needBytes none body = .fault .unwrittenRead := rfl

@[simp] theorem needBytes_some {α : Type} (x : α) (body : α → Host.Outcome State Fault Refusal) :
    needBytes (some x) body = body x := rfl

/-- If a read that may fail is followed by a next state, the bytes were there. -/
theorem needBytes_eq_next {α : Type} {r : Option α} {body : α → Host.Outcome State Fault Refusal} {t : State}
    (h : needBytes r body = .next t) : ∃ x, r = some x ∧ body x = .next t := by
  cases r with
  | none => simp [needBytes] at h
  | some x => exact ⟨x, rfl, h⟩

/-- A read that may fail faults when it does, with UNWRITTEN_READ, and else only as what follows it does. -/
theorem needBytes_eq_fault {α : Type} {r : Option α} {body : α → Host.Outcome State Fault Refusal} {f : Fault}
    (h : needBytes r body = .fault f) : (r = none ∧ f = .unwrittenRead) ∨ ∃ x, r = some x ∧ body x = .fault f := by
  cases r with
  | none => exact .inl ⟨rfl, by simpa using h.symm⟩
  | some x => exact .inr ⟨x, rfl, h⟩

/-- The read of a key chunk fails exactly when the read of its 16 bytes does (43_feistel.md R163). -/
theorem readChunk_eq_none {s : State} {k : Nat} : readChunk s k = none ↔ s.keymem.readBytes (16 * k) 16 = none := by
  simp only [readChunk]
  cases s.keymem.readBytes (16 * k) 16 <;> simp

/-- Everything the read of a key chunk can answer (43_feistel.md R160, R163). -/
theorem readChunk_eq_some {s : State} {k : Nat} {rk : RoundKey} :
    readChunk s k = some rk ↔ ∃ bs, s.keymem.readBytes (16 * k) 16 = some bs ∧ rk = chunkOf bs 0 := by
  simp only [readChunk]
  cases s.keymem.readBytes (16 * k) 16 with
  | none => simp
  | some bs => simp [eq_comm]

/-- `ror32` is the library's rotation (40_bitops.md R101). -/
theorem ror32_eq_rotateRight (v : Word) (n : Nat) (h : n < 32) : ror32 v n = v.rotateRight n := by
  rw [BitVec.rotateRight_def, Nat.mod_eq_of_lt h]
  rfl

/-- The key lengths that WGCORE takes, in words (10_state.md R28). -/
theorem keyLengthOk_iff (c : Config) (n : Nat) :
    keyLengthOk c n = true ↔ n ≠ 0 ∧ n % 16 = 0 ∧ n ≤ c.keyBytesMax := by
  simp only [keyLengthOk, Bool.and_eq_true, decide_eq_true_eq]
  tauto

/-- KEYOK in words (10_state.md R28). -/
theorem keyOk_iff (c : Config) (w : Word) :
    keyOk c w = true ↔ w.toNat ≠ 0 ∧ w.toNat % 16 = 0 ∧ w.toNat ≤ c.keyBytesMax :=
  keyLengthOk_iff c w.toNat

/-- DLEN's check in words (60_exceptions.md R211). -/
theorem dlenOk_iff (c : Config) (w : Word) : dlenOk c w = true ↔ w.toNat % 8 = 0 ∧ w.toNat ≤ c.dataBytesMax := by
  simp [dlenOk]

@[simp] theorem packLe32_length (w : Word) : (packLe32 w).length = 4 := rfl

@[simp] theorem blockBytes_length (x : Block) : (blockBytes x).length = 8 := rfl

/-- A packed word reads back as itself, wherever it stands in a byte string. -/
theorem le32_packLe32 (w : Word) (pre post : List Byte) : le32 (pre ++ packLe32 w ++ post) pre.length = w := by
  have h : ∀ i, i < 4 → byteAt (pre ++ packLe32 w ++ post) (pre.length + i) = byteAt (packLe32 w) i := by
    intro i hi
    simp only [byteAt, List.append_assoc]
    rw [List.getD_append_right _ _ _ _ (by omega), show pre.length + i - pre.length = i by omega,
      List.getD_append _ _ _ _ (by simpa using hi)]
  have h0 := h 0 (by omega)
  rw [Nat.add_zero] at h0
  simp only [le32, h0, h 1 (by omega), h 2 (by omega), h 3 (by omega)]
  apply BitVec.eq_of_getLsbD_eq
  intro i hi
  simp only [byteAt, packLe32, List.getD_cons_zero, List.getD_cons_succ, BitVec.getLsbD_or, BitVec.getLsbD_shiftLeft,
    BitVec.getLsbD_setWidth, BitVec.getLsbD_extractLsb']
  interval_cases i <;> simp

/-- The block of a block's own bytes (10_state.md R24). -/
theorem blockOf_blockBytes (x : Block) (pre post : List Byte) :
    blockOf (pre ++ blockBytes x ++ post) pre.length = x := by
  have h1 := le32_packLe32 x.1 pre (packLe32 x.2 ++ post)
  have h2 := le32_packLe32 x.2 (pre ++ packLe32 x.1) post
  simp only [List.length_append, packLe32_length] at h2
  simp only [blockOf, blockBytes]
  refine Prod.ext ?_ ?_
  · simpa [List.append_assoc] using h1
  · simpa [List.append_assoc] using h2

end Sys2Proof.Machine
end

