-- ==== Sys2Proof/Laws/Bus.lean ====
section
/-! SUPPORT. What the bus operations and the step can do, each said once. -/

namespace Sys2Proof.Machine

/-- The step with an input pending. -/
theorem step_of_input {s : State} {i : Input} {rest : List Input} (h : s.inputs = i :: rest) :
    step s = applyInput i (s.setInputs rest) := by simp [step, takeInput, h]

/-- The step with nothing pending. -/
theorem step_of_nil {s : State} (h : s.inputs = []) : step s = .next s := by simp [step, takeInput, h]

/-- Everything the step can be. -/
theorem step_cases (s : State) :
    (s.inputs = [] ∧ step s = .next s) ∨
    (∃ i rest, s.inputs = i :: rest ∧ step s = applyInput i (s.setInputs rest)) := by
  cases h : s.inputs with
  | nil => exact .inl ⟨rfl, step_of_nil h⟩
  | cons i rest => exact .inr ⟨i, rest, rfl, step_of_input h⟩

/-- The CMD write of a word that decodes runs its command. -/
theorem writeCmd_of_ok {w : Word} {i : Instr} (h : decode w = .ok i) (s : State) : writeCmd w s = exec i s := by
  simp [writeCmd, h]

/-- The CMD write of an illegal word. -/
theorem writeCmd_of_error {w : Word} {e : IllegalWord} (h : decode w = .error e) (s : State) :
    writeCmd w s = command s (.next (s.raise .illegalCommand)) := by simp [writeCmd, h]

/-- What an access that reaches a register looks like (20_memory.md R51). -/
theorem target_eq_reg {c : Config} {n : Nat} {o : Offset} {r : BusReg} (h : target c n o = some (.reg r)) :
    o.toNat < 0x100 ∧ n = 4 ∧ o.toNat % 4 = 0 ∧ r = busRegAt o.toNat := by
  simp only [target] at h
  split_ifs at h <;> simp_all

/-- What an access that reaches KEYMEM looks like (R52). -/
theorem target_eq_key {c : Config} {n : Nat} {o : Offset} {j : Nat} (h : target c n o = some (.key j)) :
    0x100 ≤ o.toNat ∧ o.toNat < 0x500 ∧ windowShape n o.toNat = true ∧ j = o.toNat - 0x100 ∧ j + n ≤ c.keyBytesMax := by
  simp only [target] at h
  split_ifs at h <;> simp_all

/-- What an access that reaches DATAMEM looks like (R52). -/
theorem target_eq_data {c : Config} {n : Nat} {o : Offset} {j : Nat} (h : target c n o = some (.data j)) :
    0x800 ≤ o.toNat ∧ windowShape n o.toNat = true ∧ j = o.toNat - 0x800 ∧ j + n ≤ c.dataBytesMax := by
  simp only [target] at h
  split_ifs at h <;> simp_all

/-- The bus admits a register access at every data register's offset. -/
theorem target_regOffset (c : Config) (r : Reg) : target c 4 (HostSide.regOffset r) = some (.reg (.data r)) := by
  cases r <;> rfl

/-- The bus admits a CMD write. -/
theorem target_cmdOffset (c : Config) : target c 4 cmdOffset = some (.reg .cmd) := rfl

/-- A host read that completes only answers the host. -/
theorem hostRead_eq_next {c : Config} {n : Nat} {o : Offset} {s t : State} (h : hostRead c n o s = .next t) :
    ∃ r, t = s.respond r := by
  simp only [hostRead] at h
  split at h
  · cases h
  · cases h; exact ⟨_, rfl⟩
  · obtain ⟨x, -, h⟩ := needBytes_eq_next h
    cases h; exact ⟨_, rfl⟩
  · obtain ⟨x, -, h⟩ := needBytes_eq_next h
    cases h; exact ⟨_, rfl⟩

/-- Everything a CTRL write can be (10_state.md R29). -/
theorem writeCtrl_cases (w : Word) (s : State) :
    (w.getLsbD 0 = true ∧ writeCtrl w s = s.softReset) ∨ (w.getLsbD 0 = false ∧ writeCtrl w s = s) := by
  cases h : w.getLsbD 0 with
  | true => exact .inl ⟨rfl, by rw [writeCtrl, if_pos h]⟩
  | false => exact .inr ⟨rfl, by rw [writeCtrl, h]; rfl⟩

/-- Everything a register write can be. -/
theorem writeReg_cases (r : BusReg) (w : Word) (s : State) :
    (r = .cmd ∧ writeReg r w s = writeCmd w s) ∨
    (r = .ctrl ∧ writeReg r w s = .next (writeCtrl w s)) ∨
    (∃ d, r = .data d ∧ hostWritable d = true ∧ writeReg r w s = .next (s.setReg d w)) ∨
    writeReg r w s = .next s := by
  cases r with
  | id => exact .inr (.inr (.inr rfl))
  | config => exact .inr (.inr (.inr rfl))
  | status => exact .inr (.inr (.inr rfl))
  | ctrl => exact .inr (.inl ⟨rfl, rfl⟩)
  | cmd => exact .inl ⟨rfl, rfl⟩
  | data d =>
    cases h : hostWritable d with
    | true => exact .inr (.inr (.inl ⟨d, rfl, h, by simp [writeReg, h]⟩))
    | false => exact .inr (.inr (.inr (by simp [writeReg, h])))
  | reserved => exact .inr (.inr (.inr rfl))

/-- Everything a host write can be. -/
theorem hostWrite_cases (c : Config) (n : Nat) (o : Offset) (w : Word) (s : State) :
    (target c n o = none ∧ hostWrite c n o w s = .fault .busError) ∨
    (∃ r, target c n o = some (.reg r) ∧ hostWrite c n o w s = writeReg r w (s.respond .done)) ∨
    (∃ j, target c n o = some (.key j) ∧ hostWrite c n o w s =
      .next ((s.respond .done).setKeymem (s.keymem.writeBytes j ((packLe32 w).take n)))) ∨
    (∃ j, target c n o = some (.data j) ∧ hostWrite c n o w s =
      .next ((s.respond .done).setDatamem (s.datamem.writeBytes j ((packLe32 w).take n)))) := by
  cases h : target c n o with
  | none => exact .inl ⟨rfl, by simp [hostWrite, h]⟩
  | some t =>
    cases t with
    | reg r => exact .inr (.inl ⟨r, rfl, by simp [hostWrite, h]⟩)
    | key j => exact .inr (.inr (.inl ⟨j, rfl, by simp [hostWrite, h]⟩))
    | data j => exact .inr (.inr (.inr ⟨j, rfl, by simp [hostWrite, h]⟩))

end Sys2Proof.Machine
end

