-- ==== Sys2Proof/Laws/Cipher.lean ====
section
/-! SUPPORT. Laws of blocks as bytes and of the chain of round states: what block `i` of a byte string of blocks is, and
what state `i` of a chain is. -/

namespace Sys2Proof.Machine

/-- A block's own bytes read back as the block. -/
@[simp] theorem blockOf_blockBytes_zero (x : Block) : blockOf (blockBytes x) 0 = x := by
  simpa using blockOf_blockBytes x [] []

/-- Eight bytes are the bytes of the block they make. -/
theorem blockBytes_blockOf (b : List Byte) (h : b.length = 8) : blockBytes (blockOf b 0) = b := by
  match b, h with
  | [a0, a1, a2, a3, a4, a5, a6, a7], _ =>
    simp only [blockBytes, blockOf, packLe32, le32, byteAt, List.cons_append, List.nil_append, List.cons.injEq, and_true]
    refine ⟨?_, ?_, ?_, ?_, ?_, ?_, ?_, ?_⟩ <;> apply BitVec.eq_of_getLsbD_eq <;> intro i hi <;>
      interval_cases i <;> simp

/-- A block read inside a byte string is the block of the eight bytes cut out there. -/
theorem blockOf_drop_take (b : List Byte) (o : Nat) : blockOf ((b.drop o).take 8) 0 = blockOf b o := by
  have h : ∀ i, i < 8 → byteAt ((b.drop o).take 8) i = byteAt b (o + i) := by
    intro i hi
    simp [byteAt, List.getD_eq_getElem?_getD, hi]
  simp [blockOf, le32, h, Nat.add_assoc]

/-- The byte-wise XOR of two blocks is the XOR of their words (44_chaining.md R192). -/
theorem zipWith_xor_blockBytes (x y : Block) :
    List.zipWith (fun a b => a ^^^ b) (blockBytes x) (blockBytes y) = blockBytes (xorBlock x y) := by
  simp only [blockBytes, packLe32, xorBlock, List.cons_append, List.nil_append, List.zipWith_cons_cons,
    List.zipWith_nil_right, List.cons.injEq, and_true]
  refine ⟨?_, ?_, ?_, ?_, ?_, ?_, ?_, ?_⟩ <;> apply BitVec.eq_of_getLsbD_eq <;> intro i hi <;>
    interval_cases i <;> simp

/-- The length of a string of blocks. -/
theorem length_flatten_blockBytes (l : List Block) : ((l.map blockBytes).flatten).length = 8 * l.length := by
  induction l with
  | nil => rfl
  | cons x l ih =>
    simp only [List.map_cons, List.flatten_cons, List.length_append, ih, blockBytes_length, List.length_cons]
    omega

/-- The eight bytes of block `i` in a string of blocks. -/
theorem take_drop_flatten_blockBytes (l : List Block) (i : Nat) (x : Block) (h : l[i]? = some x) :
    (((l.map blockBytes).flatten).drop (8 * i)).take 8 = blockBytes x := by
  induction l generalizing i with
  | nil => simp at h
  | cons y l ih =>
    cases i with
    | zero =>
      obtain rfl : y = x := by simpa using h
      simp [blockBytes, packLe32]
    | succ i =>
      rw [← ih i (by simpa using h)]
      simp only [List.map_cons, List.flatten_cons]
      rw [List.drop_append, List.drop_of_length_le (by simp)]
      simp [Nat.mul_add]

@[simp] theorem blocksOf_length (b : List Byte) : (blocksOf b).length = b.length / 8 := by simp [blocksOf]

@[simp] theorem chainStates_length (c : Config) (keys : List RoundKey) (prev : Block) (ps : List Block) :
    (chainStates c keys prev ps).length = ps.length := by
  induction ps generalizing prev with
  | nil => rfl
  | cons p ps ih => simp [chainStates, ih]

/-- State `i` of a chain: the round state of block `i` XORed with the accumulator, which is the chain's start for the
first block and the output of state `i - 1` after it (44_chaining.md R190). -/
theorem chainStates_getElem? (c : Config) (keys : List RoundKey) (ps : List Block) (start : Block) (i : Nat)
    (hi : i < ps.length) :
    ∃ st prev, (chainStates c keys start ps)[i]? = some st ∧
      (if i = 0 then prev = start
        else ∃ st0, (chainStates c keys start ps)[i - 1]? = some st0 ∧ prev = finishBlock c st0) ∧
      st = roundState c keys (xorBlock ps[i] prev) := by
  induction ps generalizing start i with
  | nil => simp at hi
  | cons p ps ih =>
    cases i with
    | zero => exact ⟨_, start, rfl, by simp, rfl⟩
    | succ i =>
      obtain ⟨st, prev, h1, h2, h3⟩ := ih (finishBlock c (roundState c keys (xorBlock p start))) i (by simpa using hi)
      refine ⟨st, prev, by simpa [chainStates] using h1, ?_, by simpa using h3⟩
      rw [if_neg (by omega)]
      cases i with
      | zero => exact ⟨_, rfl, by simpa using h2⟩
      | succ i => simpa [chainStates] using h2

/-- The ciphertext of a chain as a string of blocks. -/
theorem encryptChained_eq_flatten (c : Config) (plain key : List Byte) :
    encryptChained c plain key = (((chainStates c (roundKeys key) (0#32, 0#32) (blocksOf plain)).map
      (finishBlock c)).map blockBytes).flatten := by
  simp [encryptChained, Function.comp_def]

end Sys2Proof.Machine
end

