-- ==== Sys2Proof/Laws/HostSide.lean ====
section
/-! SUPPORT. Laws of the host software of 60_exceptions.md R230 to R232: what `buildPlaintext` answers, and once
everything the program can do. -/

namespace Sys2Proof.HostSide

open Sys2Proof.Machine

@[simp] theorem orDigit_length (template : List Byte) (pos : Nat) (d : Fin 10) :
    (orDigit template pos d).length = template.length := by
  simp [orDigit]

@[simp] theorem orDigits_length (template : List Byte) (pos : Nat) (ds : List (Fin 10)) :
    (orDigits template pos ds).length = template.length := by
  induction ds generalizing template pos with
  | nil => rfl
  | cons d ds ih => simp [orDigits, ih]

/-- `buildPlaintext` answers exactly for the digit sequences that fit, and its answer has 64 bytes (R230). -/
theorem buildPlaintext_eq_some {template : PtTemplate} {digits : List (Fin 10)} {plain : List Byte} :
    buildPlaintext template digits = some plain ↔
      digits.length ≤ 128 ∧ plain = orDigits template.val 0 digits ∧ plain.length = 64 := by
  have h : (digits.length + 1) / 2 ≤ 64 ↔ digits.length ≤ 128 := by omega
  simp only [buildPlaintext, h]
  split
  · rename_i hd
    simp only [Option.some.injEq, hd, true_and]
    constructor
    · rintro rfl
      exact ⟨rfl, by simp [template.property]⟩
    · rintro ⟨rfl, -⟩
      rfl
  · rename_i hd
    simp [hd]

/-- A text with no digit is no decimal numeral (R232). -/
@[simp] theorem challengeDigits_nil : challengeDigits [] = none := rfl

/-- The program's condition on the WGCORE, in words. -/
theorem programFits_iff (c : Config) (key : List Byte) :
    programFits c key = true ↔
      (key.length ≠ 0 ∧ key.length % 16 = 0 ∧ key.length ≤ c.keyBytesMax) ∧ 64 ≤ c.dataBytesMax := by
  simp [programFits, keyLengthOk_iff, dlenOk_iff]

/-- The program complains of its usage exactly when it is not given three arguments (R232); the one-argument `test`
form, which is left out, is among these by log entry 12. -/
theorem runProgram_eq_usage {c : Config} {template : PtTemplate} {args : List (List Char)} :
    runProgram c template args = .error .usage ↔ args.length ≠ 3 := by
  match args with
  | [] | [_] | [_, _] | _ :: _ :: _ :: _ :: _ => simp [runProgram]
  | [challenge, seq, keyText] =>
    simp only [runProgram, List.length_cons, List.length_nil]
    split
    · split
      · split <;> simp
      · simp
    · simp

/-- The program prints a line exactly when its three arguments are well formed, the digits fit the template and the
WGCORE takes the lengths; the line is then the code of the chained ciphertext (R230 to R232). -/
theorem runProgram_eq_ok {c : Config} {template : PtTemplate} {args : List (List Char)} {line : List Char} :
    runProgram c template args = .ok line ↔
      ∃ challenge seq keyText digits plain key, args = [challenge, seq, keyText] ∧
        challengeDigits challenge = some digits ∧ buildPlaintext template digits = some plain ∧
        hexBytes keyText = some key ∧ programFits c key = true ∧
        extractCode (encryptChained c plain key) seq = some line := by
  match args with
  | [] | [_] | [_, _] | _ :: _ :: _ :: _ :: _ => simp [runProgram]
  | [challenge, seq, keyText] =>
    cases hd : challengeDigits challenge with
    | none => simp [runProgram, hd]
    | some digits =>
      cases hp : buildPlaintext template digits with
      | none => simp [runProgram, hd, hp]
      | some plain =>
        cases hk : hexBytes keyText with
        | none => simp [runProgram, hd, hp, hk]
        | some key =>
          cases hf : programFits c key with
          | false => simp [runProgram, hd, hp, hk, hf]
          | true => cases hx : extractCode (encryptChained c plain key) seq <;> simp [runProgram, hd, hp, hk, hf, hx]

end Sys2Proof.HostSide
end

