-- ==== Sys2Proof/Laws/PerInstr.lean ====
section
/-! SUPPORT. Statements for all instructions, made per instruction: every command's word has its reserved bits 31:22 at
zero, whatever its operands (30_encoding.md rule R80). -/

namespace Sys2Proof.Laws.ReservedBitsZero

/-- The word of `i` has RSV = 0. -/
def Statement (i : Instr) : Prop := rsvField (encode i) = 0#10

/-- Format F0 never sets a bit of RSV. -/
theorem rsvField_assembleF0 (opc fa : BitVec 8) (fb : BitVec 6) : rsvField (assembleF0 opc fa fb) = 0#10 := by
  apply BitVec.eq_of_getLsbD_eq
  intro i hi
  interval_cases i <;> simp [rsvField, assembleF0]

theorem nop : Statement .nop := rsvField_assembleF0 _ _ _
theorem ror32 (n : BitVec 5) : Statement (.ror32 n) := rsvField_assembleF0 _ _ _
theorem extract (lsb : BitVec 5) (width : BitVec 6) : Statement (.extract lsb width) := rsvField_assembleF0 _ _ _
theorem mix : Statement .mix := rsvField_assembleF0 _ _ _
theorem prepare : Statement .prepare := rsvField_assembleF0 _ _ _
theorem finalize : Statement .finalize := rsvField_assembleF0 _ _ _
theorem round (k : BitVec 8) : Statement (.round k) := rsvField_assembleF0 _ _ _
theorem bstart : Statement .bstart := rsvField_assembleF0 _ _ _
theorem bfinish : Statement .bfinish := rsvField_assembleF0 _ _ _
theorem encblk : Statement .encblk := rsvField_assembleF0 _ _ _
theorem cbcinit : Statement .cbcinit := rsvField_assembleF0 _ _ _
theorem cbcblk : Statement .cbcblk := rsvField_assembleF0 _ _ _
theorem cbcbuf : Statement .cbcbuf := rsvField_assembleF0 _ _ _

end Sys2Proof.Laws.ReservedBitsZero
end

