-- ==== Sys2Proof/Tests/Slice0.lean ====
section
/-! SUPPORT. Own tests. Decode words are written out from the patterns of 30_encoding.md rule R84; every expected value
comes from 95_test_vectors.md or from a rule's own example, as each comment says. The witnesses at the end show, for
each statement of Certificates/Slice0/Obligations.lean that has hypotheses, a state and operands that meet them all. -/

-- one theorem at a time: many kernel evaluations waiting for one another would each hold a thread
set_option Elab.async false

namespace Sys2Proof.Tests

open Sys2Proof Sys2Proof.Machine Sys2Proof.HostSide Sys2Proof.Safety

/-! ## Helpers -/

/-- A field of the next state, if there is one. -/
def after {α : Type} (o : Host.Outcome State Fault Refusal) (f : State → α) : Option α :=
  match o with
  | .next s => some (f s)
  | .fault _ => none
  | .refused _ => none

/-- The fault, if the outcome is one. -/
def faultOf (o : Host.Outcome State Fault Refusal) : Option Fault :=
  match o with
  | .next _ => none
  | .fault f => some f
  | .refused _ => none

/-- The bytes of the test key TK: i XOR 0x33 (95_test_vectors.md). -/
def testKey (n : Nat) : List Byte := (List.range n).map fun i => BitVec.ofNat 8 i ^^^ 0x33#8

/-- The bytes 00, 01, 02, ... -/
def countBytes (n : Nat) : List Byte := (List.range n).map fun i => BitVec.ofNat 8 i

/-- Bytes as a memory from index 0 on. -/
def memoryOf (b : List Byte) : Memory := Memory.writeBytes [] 0 b

/-- After reset, key TK with KEYLEN = n, and the block 00 .. 07 in DIN. -/
def keyed (n : Nat) : State :=
  { State.reset with keymem := memoryOf (testKey n), keylen := BitVec.ofNat 32 n,
                     din0 := 0x03020100#32, din1 := 0x07060504#32 }

/-- `keyed n` with the bytes 00, 01, ... in DATAMEM and DLEN = d. -/
def loaded (n d : Nat) : State :=
  { keyed n with datamem := memoryOf (countBytes d), dlen := BitVec.ofNat 32 d }

/-- A state with one host access pending. -/
def offer (s : State) (a : Access) : State := { s with inputs := [.access a] }

/-! ## Well-formedness: the one check refuses an ill-formed term (R81, R85) -/

theorem test_wellFormed_refuses_extract_width_33 : (Instr.extract 0#5 33#6).wellFormed = false := by decide
theorem test_wellFormed_accepts_extract_width_32 : (Instr.extract 31#5 32#6).wellFormed = true := by decide

/-! ## Decoding: one word per constructor, from R84's patterns -/

theorem test_decode_nop : decode 0b00000000000000000000000000000000#32 = .ok (.nop) := by rfl
theorem test_decode_ror32 : decode 0b00000000000000000001000000000001#32 = .ok (.ror32 16#5) := by rfl
theorem test_decode_ror32_largest : decode 0b00000000000000000001111100000001#32 = .ok (.ror32 31#5) := by rfl
theorem test_decode_extract : decode 0b00000000000001100001101000000010#32 = .ok (.extract 26#5 6#6) := by rfl
theorem test_decode_extract_widest : decode 0b00000000001000000000000000000010#32 = .ok (.extract 0#5 32#6) := by rfl
theorem test_decode_mix : decode 0b00000000000000000000000000000011#32 = .ok (.mix) := by rfl
theorem test_decode_prepare : decode 0b00000000000000000000000000000100#32 = .ok (.prepare) := by rfl
theorem test_decode_finalize : decode 0b00000000000000000000000000000101#32 = .ok (.finalize) := by rfl
theorem test_decode_round : decode 0b00000000000000000000011100000110#32 = .ok (.round 7#8) := by rfl
theorem test_decode_round_largest : decode 0b00000000000000001111111100000110#32 = .ok (.round 255#8) := by rfl
theorem test_decode_bstart : decode 0b00000000000000000000000000001000#32 = .ok (.bstart) := by rfl
theorem test_decode_bfinish : decode 0b00000000000000000000000000001001#32 = .ok (.bfinish) := by rfl
theorem test_decode_encblk : decode 0b00000000000000000000000000001010#32 = .ok (.encblk) := by rfl
theorem test_decode_cbcinit : decode 0b00000000000000000000000000001011#32 = .ok (.cbcinit) := by rfl
theorem test_decode_cbcblk : decode 0b00000000000000000000000000001100#32 = .ok (.cbcblk) := by rfl
theorem test_decode_cbcbuf : decode 0b00000000000000000000000000001101#32 = .ok (.cbcbuf) := by rfl

/-! Illegal words, by name (95_test_vectors.md L2-1) -/

theorem test_illegal_reserved_07 : decode 0x00000007#32 = .error .reservedOpcode := by rfl
theorem test_illegal_reserved_0E : decode 0x0000000E#32 = .error .reservedOpcode := by rfl
theorem test_illegal_reserved_FF : decode 0x000000FF#32 = .error .reservedOpcode := by rfl
theorem test_illegal_ror32_FA_bit_13 : decode 0x00002001#32 = .error .mustBeZeroField := by rfl
theorem test_illegal_ror32_FB : decode 0x00010001#32 = .error .mustBeZeroField := by rfl
theorem test_illegal_mix_FA : decode 0x00000103#32 = .error .mustBeZeroField := by rfl
theorem test_illegal_round_FB : decode 0x00010006#32 = .error .mustBeZeroField := by rfl
theorem test_illegal_extract_33 : decode 0x00210002#32 = .error .extractWidth := by rfl
theorem test_illegal_rsv_22 : decode 0x00400000#32 = .error .reservedBits := by rfl
theorem test_illegal_rsv_31 : decode 0x80000000#32 = .error .reservedBits := by rfl

theorem test_decodeTableWord : decodeTableWord 32 0x1001 = some (.ror32 16#5) := by decide +kernel
theorem test_decodeTableWord_refuses : decodeTableWord 32 0x7 = none := by decide +kernel
theorem test_withFetchWord_runs_the_word :
    after (step (State.reset.withFetchWord 32 0x7)) (fun s => (s.err, s.ecode)) = some (true, 1#4) := by decide +kernel
theorem test_withFetchWord_first_instruction :
    step (State.reset.withFetchWord 32 0xB) = exec .cbcinit { State.reset with response := .done } := by rfl

/-! ## One step each: expected values of 95_test_vectors.md L1 and L2 -/

/-- State with operands. -/
def operands (a b : Word) : State := { State.reset with opa := a, opb := b }

theorem test_nop : after (exec .nop (operands 1#32 2#32)) id = some (operands 1#32 2#32) := by decide +kernel

theorem test_ror32_16 :
    after (exec (.ror32 16#5) (operands 0xDEADBEAF#32 0#32)) (fun s => s.res0) = some 0xBEAFDEAD#32 := by decide +kernel
theorem test_ror32_0 :
    after (exec (.ror32 0#5) (operands 0xDEADBEAF#32 0#32)) (fun s => s.res0) = some 0xDEADBEAF#32 := by decide +kernel
theorem test_extract_4_8 :
    after (exec (.extract 4#5 8#6) (operands 0xDEADBEAF#32 0#32)) (fun s => s.res0) = some 0x000000EA#32 := by decide +kernel
theorem test_extract_past_bit_31 :
    after (exec (.extract 28#5 8#6) (operands 0xDEADBEAF#32 0#32)) (fun s => s.res0) = some 0x0000000D#32 := by decide +kernel
theorem test_mix :
    after (exec (.mix) (operands 0x12345678#32 0x9ABCDEF0#32)) (fun s => s.res0) = some 0x4F4DD37F#32 := by decide +kernel
theorem test_mix_swapped_pair :
    after (exec (.mix) (operands 0x00000004#32 0x00000000#32)) (fun s => s.res0) = some 0xECD8D0D9#32 := by decide +kernel
theorem test_prepare :
    after (exec (.prepare) (operands 0x01234567#32 0x89ABCDEF#32)) (fun s => (s.res0, s.res1)) = some (0x507D507D#32, 0xFE600667#32) := by decide +kernel
theorem test_prepare_unit :
    after (exec (.prepare) (operands 0x00000001#32 0x00000000#32)) (fun s => (s.res0, s.res1)) = some (0x00000000#32, 0x00000004#32) := by decide +kernel
theorem test_finalize :
    after (exec (.finalize) (operands 0x01234567#32 0x89ABCDEF#32)) (fun s => (s.res0, s.res1)) = some (0x55FF33C3#32, 0x5500CCF0#32) := by decide +kernel
theorem test_finalize_inverse :
    after (exec (.finalize) (operands 0x98000001#32 0xA8780002#32)) (fun s => (s.res0, s.res1)) = some (0x03020100#32, 0x07060504#32) := by decide +kernel

theorem test_round_0 :
    after (exec (.round 0#8) { keyed 128 with sl := 0x98000001#32, sr := 0xA8780002#32 }) (fun s => (s.sl, s.sr)) =
      some (0x2F9A8020#32, 0x461EFFF1#32) := by decide +kernel
theorem test_round_8_index : after (exec (.round 8#8) (keyed 128)) (fun s => statusWord wgcore s) = some 0x00000843#32 := by
  decide +kernel
theorem test_bstart : after (exec .bstart (keyed 0)) (fun s => (s.sl, s.sr)) = some (0x98000001#32, 0xA8780002#32) := by
  decide +kernel
theorem test_bfinish :
    after (exec .bfinish { State.reset with sl := 0xF735828D#32, sr := 0xABB255ED#32 }) (fun s => (s.dout0, s.dout1)) =
      some (0xDB9F6C97#32, 0xC22D8FA1#32) := by decide +kernel
/-- The golden vector of the source (L1-2). -/
theorem test_encblk_golden :
    after (exec .encblk (keyed 128)) (fun s => (s.dout0, s.dout1, s.sl, s.sr)) =
      some (0xDB9F6C97#32, 0xC22D8FA1#32, 0xF735828D#32, 0xABB255ED#32) := by decide +kernel
/-- A 17-byte key (L1-3). -/
theorem test_encblk_keylen_17 : after (exec .encblk (keyed 17)) (fun s => (statusWord wgcore s, s.dout0)) =
    some (0x00000021#32, 0#32) := by decide +kernel
theorem test_cbcinit : after (exec .cbcinit { State.reset with prev0 := 0xDB9F6C97#32 }) (fun s => (s.prev0, s.prev1)) =
    some (0#32, 0#32) := by decide +kernel
/-- The second block of program P5. -/
theorem test_cbcblk_second_block :
    after (exec .cbcblk { keyed 128 with prev0 := 0xDB9F6C97#32, prev1 := 0xC22D8FA1#32, din0 := 0x0B0A0908#32,
                                         din1 := 0x0F0E0D0C#32 })
      (fun s => (s.dout0, s.dout1, s.prev0, s.prev1)) =
      some (0xF2D7D078#32, 0xE4CDB5ED#32, 0xF2D7D078#32, 0xE4CDB5ED#32) := by decide +kernel
/-- R193's example: two blocks in place. -/
theorem test_cbcbuf_two_blocks :
    after (exec .cbcbuf (loaded 128 16)) (fun s => (s.datamem.map (fun x => x.2), s.prev1, s.sr)) =
      some ([0x97#8, 0x6C#8, 0x9F#8, 0xDB#8, 0xA1#8, 0x8F#8, 0x2D#8, 0xC2#8] ++
        [0x78#8, 0xD0#8, 0xD7#8, 0xF2#8, 0xED#8, 0xB5#8, 0xCD#8, 0xE4#8], 0xE4CDB5ED#32, 0x8454EBF9#32) := by
  decide +kernel
theorem test_cbcbuf_dlen_12 : after (exec .cbcbuf { loaded 128 16 with dlen := 12#32 }) (fun s => statusWord wgcore s) =
    some 0x00000833#32 := by decide +kernel

/-! ## Bus and reset (95_test_vectors.md L2-7, L2-8) -/

theorem test_bus_byte_write_to_register : faultOf (step (offer (keyed 128) (.writeByte 0x014#12 0#8))) = some .busError := by
  decide +kernel
theorem test_bus_past_keymem : faultOf (step (offer (keyed 128) (.writeWord 0x180#12 0#32))) = some .busError := by
  decide +kernel
theorem test_bus_unwritten_read :
    faultOf (step (offer { State.reset with keymem := [(0, 0xAB#8)] } (.readWord 0x100#12))) = some .unwrittenRead := by
  decide +kernel
theorem test_bus_little_endian :
    after (step (offer { State.reset with datamem := memoryOf [1#8, 2#8, 3#8, 4#8] } (.readWord 0x800#12)))
      (fun s => s.response) = some (.word 0x04030201#32) := by decide +kernel
theorem test_decode_before_key_check :
    after (step (offer (keyed 17) (.writeWord 0x010#12 0x00000103#32))) (fun s => statusWord wgcore s) =
      some 0x00000011#32 := by decide +kernel
theorem test_ignored_in_error_state :
    after (step (offer ({ keyed 128 with prev0 := 5#32 }.raise .illegalCommand) (.writeWord 0x010#12 0x0000000B#32)))
      (fun s => (s.prev0, statusWord wgcore s)) = some (5#32, 0x00000813#32) := by decide +kernel
theorem test_soft_reset_keeps_keymem :
    after (step (offer ((keyed 128).raise .keylenInvalid) (.writeWord 0x00C#12 1#32)))
      (fun s => (s.err, s.keylen, s.keymem.length)) = some (false, 0#32, 128) := by decide +kernel

/-! ## Host side (R87 to R90, R230, R231) -/

theorem test_assemble_extract :
    assembleLine ['e', 'x', 't', 'r', 'a', 'c', 't', ' ', '2', '6', ',', ' ', '6'] = some 0x00061A02#32 := by decide +kernel
theorem test_assemble_refuses_ror32_32 : assembleLine ['r', 'o', 'r', '3', '2', ' ', '3', '2'] = none := by decide +kernel
/-- Two digits share the first byte; the third is ORed onto the second byte, not put in its place (R230). -/
theorem test_buildPlaintext :
    (buildPlaintext ⟨0#8 :: List.replicate 63 0x0F#8, rfl⟩ [1, 2, 3]).map (·.take 3) =
      some [0x12#8, 0x3F#8, 0x0F#8] := by decide +kernel
/-- 128 digits fit the 64 bytes and 129 do not: `ceil(len/2) <= 64` (R230). -/
theorem test_buildPlaintext_fit :
    (buildPlaintext ⟨List.replicate 64 0#8, rfl⟩ (List.replicate 128 1)).isSome = true ∧
      buildPlaintext ⟨List.replicate 64 0#8, rfl⟩ (List.replicate 129 1) = none := by decide +kernel
/-- A challenge is a decimal numeral; an empty text and a stray letter are none (R232). -/
theorem test_challengeDigits :
    challengeDigits ['0', '9'] = some [0, 9] ∧ challengeDigits [] = none ∧ challengeDigits ['1', 'a'] = none := by
  decide +kernel
/-- Program P2's code: bytes 48 to 51 are 4b e3 e3 54. -/
theorem test_extractCode :
    extractCode (List.replicate 48 0#8 ++ [0x4B#8, 0xE3#8, 0xE3#8, 0x54#8] ++ List.replicate 12 0#8)
      ['0', 'x', '3', 'e', 'f'] =
      some (['c', 'o', 'd', 'e', ':', ' '] ++ ['0', '3', 'e', 'f'] ++ ['4', 'b', 'e', '3', 'e', '3', '5', '4']) := by
  decide +kernel

/-! ## Witnesses: each statement's hypotheses can be met -/

/-- An 8-byte-block configuration with trivial networks, legal like any other (R7). -/
def plainConfig : Config where
  keyBytesMax := 16
  dataBytesMax := 8
  sbox := fun _ _ => 0#32
  prepareNet := fun a b => (a, b)
  finalizeNet := fun a b => (a, b)

theorem witness_DecodeOfEncodeIsTheCommand :
    (Instr.extract 31#5 32#6).wellFormed = true := by decide +kernel
theorem witness_DecodedWordIsTheCommandsOwnWord :
    decode 0x00201F02#32 = .ok (.extract 31#5 32#6) := rfl
theorem witness_StepExecutesTheDecodedCommand :
    NextAccess (offer (keyed 128) (.writeWord 0x010#12 0x0000FF06#32)) (.writeWord 0x010#12 0x0000FF06#32) [] ∧
      decode 0x0000FF06#32 = .ok (.round 255#8) := ⟨rfl, rfl⟩
theorem witness_StepWithoutInputChangesNothing :
    State.reset.inputs = [] := rfl
theorem witness_SecondHostIsRefused :
    ({ State.reset with inputs := [.otherHost (.readByte 0#12)] } : State).inputs = .otherHost (.readByte 0#12) :: [] := rfl
theorem witness_IllegalWordRaisesIllegalCommand :
    (offer (keyed 128) (.writeWord 0x010#12 0x00210002#32)).err = false ∧
      NextAccess (offer (keyed 128) (.writeWord 0x010#12 0x00210002#32)) (.writeWord 0x010#12 0x00210002#32) [] ∧
      ∀ i : Instr, i.wellFormed = true → encode i ≠ 0x00210002#32 := by
  refine ⟨rfl, rfl, fun i => ?_⟩
  cases i with
  | ror32 n => revert n; decide +kernel
  | extract lsb width => revert lsb width; decide +kernel
  | round k => revert k; decide +kernel
  | _ => decide +kernel
theorem witness_ErrorStateIgnoresEveryCommandWord :
    (offer ((keyed 128).raise .roundIndex) (.writeWord 0x010#12 7#32)).err = true ∧
      NextAccess (offer ((keyed 128).raise .roundIndex) (.writeWord 0x010#12 7#32)) (.writeWord 0x010#12 7#32) [] := ⟨rfl, rfl⟩
theorem witness_ErrorStateEndsOnlyByReset_hardReset :
    after (step { (keyed 128).raise .roundIndex with inputs := [.hardReset] }) (fun t => (t.err, t.ecode)) = some (false, 0#4) := by decide +kernel
theorem witness_ErrorStateEndsOnlyByReset_ctrl :
    after (step (offer ((keyed 128).raise .roundIndex) (.writeWord 0x00C#12 0xFFFFFFFF#32))) (fun t => (t.err, t.ecode)) =
      some (false, 0#4) := by decide +kernel
theorem witness_ErrorStateEndsOnlyByReset_other :
    after (step (offer ((keyed 128).raise .roundIndex) (.writeWord 0x00C#12 0xFFFFFFFE#32))) (fun t => (t.err, t.ecode)) =
      some (true, 4#4) := by decide +kernel
theorem witness_KeyCommandsRaiseKeylenInvalid_zero :
    ({ keyed 128 with keylen := 0#32 } : State).err = false ∧ ({ keyed 128 with keylen := 0#32 } : State).keylen.toNat = 0 := by decide +kernel
theorem witness_KeyCommandsRaiseKeylenInvalid_odd :
    ({ keyed 128 with keylen := 17#32 } : State).err = false ∧ ({ keyed 128 with keylen := 17#32 } : State).keylen.toNat % 16 ≠ 0 := by decide +kernel
theorem witness_KeyCommandsRaiseKeylenInvalid_long :
    ({ keyed 128 with keylen := 144#32 } : State).err = false ∧ ({ keyed 128 with keylen := 144#32 } : State).keylen.toNat > 128 := by decide +kernel
theorem witness_CbcbufRaisesDlenInvalid_odd :
    (keyed 128).err = false ∧ keyOk wgcore (keyed 128).keylen = true ∧
      ({ keyed 128 with dlen := 63#32 } : State).dlen.toNat % 8 ≠ 0 := by decide +kernel
theorem witness_CbcbufRaisesDlenInvalid_long :
    (keyed 128).err = false ∧ keyOk wgcore (keyed 128).keylen = true ∧
      64 < ({ keyed 128 with dlen := 72#32 } : State).dlen.toNat := by decide +kernel
theorem witness_RoundRaisesRoundIndex :
    (keyed 128).err = false ∧ keyOk wgcore (keyed 128).keylen = true ∧ (keyed 128).keylen.toNat / 16 ≤ (8#8).toNat := by decide +kernel
theorem witness_ViolationWritesNothingButTheError :
    (keyed 17).err = false ∧ exec .encblk (keyed 17) = .next ((keyed 17).raise .keylenInvalid) ∧
      ((keyed 17).raise .keylenInvalid).err = true := ⟨rfl, by rfl, rfl⟩
/-- The last key byte and the last data byte are missing. -/
def short : State := { loaded 128 64 with keymem := memoryOf (testKey 127), datamem := memoryOf (countBytes 63) }

/-- Each clause by the last byte it covers: ROUND's chunk, the block commands' key, CBCBUF's key and its data alone. -/
theorem witness_CommandFaultsOnlyOnUnwrittenBytes :
    faultOf (exec (.round 7#8) short) = some .unwrittenRead ∧ faultOf (exec (.round 6#8) short) = none ∧
    faultOf (exec .encblk short) = some .unwrittenRead ∧ faultOf (exec .cbcblk short) = some .unwrittenRead ∧
    faultOf (exec .cbcbuf { short with dlen := 0#32 }) = some .unwrittenRead ∧
    faultOf (exec .cbcbuf { short with keylen := 16#32 }) = some .unwrittenRead := by decide +kernel
theorem witness_UnwrittenOperandByteFaults :
    short.err = false ∧ keyOk wgcore short.keylen = true ∧ dlenOk wgcore short.dlen = true ∧
      127 < short.keylen.toNat ∧ short.keymem.read 127 = none ∧ 63 < short.dlen.toNat ∧ short.datamem.read 63 = none ∧
      (7#8).toNat < short.keylen.toNat / 16 ∧ short.keymem.read (16 * (7#8).toNat + 15) = none := by decide +kernel
theorem witness_commands_without_a_key :
    State.reset.err = false ∧ (32#6).toNat ≤ 32 := by decide +kernel
theorem witness_RoundUpdatesBothHalves :
    (keyed 128).err = false ∧ keyOk wgcore (keyed 128).keylen = true ∧ (7#8).toNat < (keyed 128).keylen.toNat / 16 ∧
      (keyed 128).keymem.readBytes (16 * (7#8).toNat) 16 = some ((testKey 128).drop 112) := by decide +kernel
theorem witness_key_commands :
    (keyed 128).err = false ∧ keyOk wgcore (keyed 128).keylen = true ∧
      (keyed 128).keymem.readBytes 0 (keyed 128).keylen.toNat = some (testKey 128) := by decide +kernel
theorem witness_CbcbufEncryptsTheBufferInPlace :
    (loaded 16 64).err = false ∧ keyOk wgcore (loaded 16 64).keylen = true ∧ (loaded 16 64).dlen.toNat % 8 = 0 ∧
      (loaded 16 64).dlen.toNat ≤ 64 ∧ (loaded 16 64).dlen.toNat ≠ 0 ∧
      (loaded 16 64).keymem.readBytes 0 (loaded 16 64).keylen.toNat = some (testKey 16) ∧
      (loaded 16 64).datamem.readBytes 0 (loaded 16 64).dlen.toNat = some (countBytes 64) := by decide +kernel
theorem witness_CbcbufOnAnEmptyBufferClearsPrev :
    (keyed 16).err = false ∧ keyOk wgcore (keyed 16).keylen = true ∧ (keyed 16).dlen = 0#32 ∧
      (keyed 16).keymem.readBytes 0 (keyed 16).keylen.toNat = some (testKey 16) := by decide +kernel
theorem witness_EncryptChainedBlockByBlock :
    (countBytes 16).length % 8 = 0 ∧ 1 < (countBytes 16).length / 8 := by decide +kernel
theorem witness_CommandsNeverWriteTheirInputs :
    exec .cbcinit (keyed 16) = .next ((keyed 16).setPrev (0#32, 0#32)) := by rfl
/-- Every register clause of the statement is met by a command that changes its register. -/
theorem witness_EachRegisterIsWrittenOnlyByItsCommands :
    after (exec .prepare (operands 1#32 0x80000000#32)) (fun t => (t.res0 ≠ 0#32 ∧ t.res1 ≠ 0#32 : Bool)) = some true ∧
    after (exec .cbcblk (keyed 16)) (fun t => (t.sl ≠ 0#32 ∧ t.prev0 ≠ 0#32 ∧ t.dout0 ≠ 0#32 : Bool)) = some true ∧
    after (exec .cbcbuf (loaded 16 8)) (fun t => (t.datamem ≠ (loaded 16 8).datamem : Bool)) = some true := by
  decide +kernel
theorem witness_StepKeepsTheInvariant :
    Inv (offer (loaded 16 8) (.writeWord 0x010#12 0x0000000D#32)) ∧
      (after (step (offer (loaded 16 8) (.writeWord 0x010#12 0x0000000D#32))) (fun t => t.err)) = some false := by decide +kernel
theorem witness_DataRegistersReadAndWriteOverTheBus :
    NextAccess (offer State.reset (.readWord (regOffset .dout1))) (.readWord (regOffset .dout1)) [] ∧
      NextAccess (offer State.reset (.writeWord (regOffset .keylen) 5#32)) (.writeWord (regOffset .keylen) 5#32) [] := ⟨rfl, rfl⟩
theorem witness_ReadsHaveNoSideEffects :
    NextAccess (offer (keyed 16) (.readByte 0x10F#12)) (.readByte 0x10F#12) [] ∧
      after (step (offer (keyed 16) (.readByte 0x10F#12))) (fun t => t.response) = some (.byte 0x3C#8) := ⟨rfl, by decide +kernel⟩
theorem witness_IdAndConfigAreConstants :
    NextAccess (offer (keyed 16) (.readWord 0x000#12)) (.readWord 0x000#12) [] ∧
      NextAccess (offer (keyed 16) (.readWord 0x004#12)) (.readWord 0x004#12) [] ∧
      NextAccess (offer (keyed 16) (.writeWord 0x000#12 1#32)) (.writeWord 0x000#12 1#32) [] ∧
      NextAccess (offer (keyed 16) (.writeWord 0x004#12 1#32)) (.writeWord 0x004#12 1#32) [] := ⟨rfl, rfl, rfl, rfl⟩
theorem witness_StatusReadsItsFields :
    NextAccess (offer (keyed 128) (.readWord 0x008#12)) (.readWord 0x008#12) [] ∧
      NextAccess (offer (keyed 128) (.writeWord 0x008#12 0#32)) (.writeWord 0x008#12 0#32) [] := ⟨rfl, rfl⟩
theorem witness_CtrlBitZeroSoftResets :
    NextAccess (offer (keyed 128) (.writeWord 0x00C#12 1#32)) (.writeWord 0x00C#12 1#32) [] ∧ (1#32).getLsbD 0 = true ∧
      NextAccess (offer (keyed 128) (.writeWord 0x00C#12 2#32)) (.writeWord 0x00C#12 2#32) [] ∧ (2#32).getLsbD 0 = false ∧
      NextAccess (offer (keyed 128) (.readWord 0x010#12)) (.readWord 0x010#12) [] := ⟨rfl, rfl, rfl, rfl, rfl⟩
theorem witness_ReservedOffsetsReadZeroAndIgnoreWrites :
    (0x050 ≤ (0x0FC#12).toNat ∧ (0x0FC#12).toNat ≤ 0x0FC ∧ (0x0FC#12).toNat % 4 = 0) ∧ (0x01C#12).toNat = 0x01C ∧
      NextAccess (offer State.reset (.readWord 0x0FC#12)) (.readWord 0x0FC#12) [] ∧
      NextAccess (offer State.reset (.writeWord 0x01C#12 9#32)) (.writeWord 0x01C#12 9#32) [] := ⟨by decide, by decide, rfl, rfl⟩
theorem witness_HardResetRestoresTheResetState :
    ({ keyed 128 with inputs := [.hardReset] } : State).inputs = .hardReset :: [] := rfl
theorem witness_BusErrorExactlyOnUnadmittedAccess :
    NextAccess (offer (keyed 128) (.readWord 0x17C#12)) (.readWord 0x17C#12) [] ∧
      faultOf (step (offer (keyed 128) (.readWord 0x17C#12))) = none ∧
      faultOf (step (offer (keyed 128) (.readByte 0x180#12))) = some .busError := ⟨rfl, by decide +kernel, by decide +kernel⟩
/-- Each clause at the last offset it covers. -/
theorem witness_WindowWritesStoreLittleEndian :
    (0x100 ≤ (0x17C#12).toNat ∧ (0x17C#12).toNat % 4 = 0 ∧ (0x17C#12).toNat - 0x100 + 4 ≤ 128) ∧
    (0x100 ≤ (0x17F#12).toNat ∧ (0x17F#12).toNat - 0x100 + 1 ≤ 128) ∧
    (0x800 ≤ (0x83C#12).toNat ∧ (0x83C#12).toNat % 4 = 0 ∧ (0x83C#12).toNat - 0x800 + 4 ≤ 64) ∧
    (0x800 ≤ (0x83F#12).toNat ∧ (0x83F#12).toNat - 0x800 + 1 ≤ 64) ∧
    NextAccess (offer State.reset (.writeWord 0x17C#12 1#32)) (.writeWord 0x17C#12 1#32) [] ∧
    NextAccess (offer State.reset (.writeByte 0x17F#12 1#8)) (.writeByte 0x17F#12 1#8) [] ∧
    NextAccess (offer State.reset (.writeWord 0x83C#12 1#32)) (.writeWord 0x83C#12 1#32) [] ∧
    NextAccess (offer State.reset (.writeByte 0x83F#12 1#8)) (.writeByte 0x83F#12 1#8) [] :=
  ⟨by decide, by decide, by decide, by decide, rfl, rfl, rfl, rfl⟩
/-- The same offsets, once with every byte written and once with the last one UNWRITTEN. -/
theorem witness_WindowReadsReturnLittleEndian :
    NextAccess (offer (loaded 128 64) (.readWord 0x17C#12)) (.readWord 0x17C#12) [] ∧
    (∀ i, i < 4 → (loaded 128 64).keymem.read (0x17C - 0x100 + i) ≠ none) ∧
    short.keymem.read (0x17C - 0x100 + 3) = none ∧ (loaded 128 64).keymem.read (0x17F - 0x100) = some 0x4C#8 ∧
    (∀ i, i < 4 → (loaded 128 64).datamem.read (0x83C - 0x800 + i) ≠ none) ∧
    short.datamem.read (0x83C - 0x800 + 3) = none ∧ (loaded 128 64).datamem.read (0x83F - 0x800) = some 0x3F#8 ∧
    NextAccess (offer (loaded 128 64) (.readByte 0x17F#12)) (.readByte 0x17F#12) [] ∧
    NextAccess (offer (loaded 128 64) (.readWord 0x83C#12)) (.readWord 0x83C#12) [] ∧
    NextAccess (offer (loaded 128 64) (.readByte 0x83F#12)) (.readByte 0x83F#12) [] := by
  refine ⟨rfl, ?_, by decide +kernel, by decide +kernel, ?_, by decide +kernel, by decide +kernel, rfl, rfl, rfl⟩ <;>
    decide +kernel
theorem witness_RepeatedAccessesAreIdempotent :
    (after (step { keyed 16 with inputs := [.access (.writeWord 0x100#12 7#32), .access (.writeWord 0x100#12 7#32)] })
      (fun t => t.inputs.length)) = some 1 ∧ ∀ w, Access.writeWord 0x100#12 7#32 ≠ .writeWord 0x010#12 w := ⟨by decide +kernel, fun w h => by simp at h⟩
theorem witness_Ror32AndExtractLaws :
    31 < 32 ∧ 18 ∈ [2, 10, 18] := by decide
/-- Two different round keys that agree outside the ignored bits (L2-5: byte 0 ^= 0x03, byte 4 ^= 0x30). -/
theorem witness_IgnoredKeyBitsHaveNoEffect :
    let k : RoundKey := { kL1 := 0#32, kR1 := 0#32, kL2 := 0#32, kR2 := 0#32 }
    let k' : RoundKey := { kL1 := 0x03030303#32, kR1 := 0x30303030#32, kL2 := 0x03030303#32, kR2 := 0x30303030#32 }
    k ≠ k' ∧ k.kL1 &&& 0xFCFCFCFC#32 = k'.kL1 &&& 0xFCFCFCFC#32 ∧ k.kL2 &&& 0xFCFCFCFC#32 = k'.kL2 &&& 0xFCFCFCFC#32 ∧
      k.kR1 &&& 0xCFCFCFCF#32 = k'.kR1 &&& 0xCFCFCFCF#32 ∧ k.kR2 &&& 0xCFCFCFCF#32 = k'.kR2 &&& 0xCFCFCFCF#32 := by
  decide
/-- A legal configuration, and two distinct blocks of eight bytes. -/
theorem witness_EncryptionIsABijectionOnBlocks :
    plainConfig.Legal ∧ (countBytes 8).length = 8 ∧ (testKey 8).length = 8 ∧ countBytes 8 ≠ testKey 8 :=
  ⟨⟨by decide, by decide, by decide, by decide, Function.bijective_id, Function.bijective_id⟩, by decide +kernel⟩
theorem witness_BfinishAfterABlockRecomputesTheOutput :
    after (exec .encblk (keyed 16)) (fun t => t.err) = some false ∧
      after (exec .cbcblk (keyed 16)) (fun t => t.err) = some false ∧
      after (exec .cbcbuf (loaded 16 8)) (fun t => t.err) = some false ∧ (loaded 16 8).dlen.toNat ≠ 0 := by decide +kernel
/-- One state for the chain, one for the buffer, with the same key and the same two blocks. -/
theorem witness_ChainingFormsAgree :
    let blocks : List Block := blocksOf (countBytes 16)
    let plain := (blocks.map blockBytes).flatten
    blocks ≠ [] ∧ plain.length ≤ 64 ∧ (loaded 16 16).err = false ∧ (loaded 16 16).keylen = (keyed 16).keylen ∧
      (loaded 16 16).keymem = (keyed 16).keymem ∧ (loaded 16 16).dlen.toNat = plain.length ∧
      (loaded 16 16).datamem.readBytes 0 (loaded 16 16).dlen.toNat = some plain := by decide +kernel
theorem witness_PlaintextChangePropagatesDownTheChain :
    plainConfig.Legal ∧ 1 < (blocksOf (countBytes 24)).length ∧ (blocksOf (countBytes 24))[1]? ≠ some (0#32, 0#32) :=
  ⟨⟨by decide, by decide, by decide, by decide, Function.bijective_id, Function.bijective_id⟩, by decide +kernel⟩
theorem witness_SetkeyLoadsTheKey :
    (testKey 128).length % 4 = 0 ∧ (testKey 128).length ≤ 128 := by decide +kernel
theorem witness_BootSequenceEncryptsABuffer :
    State.reset.err = false ∧ (testKey 128).length % 16 = 0 ∧ (testKey 128).length ≠ 0 ∧ (testKey 128).length ≤ 128 ∧
      (countBytes 64).length % 8 = 0 ∧ (countBytes 64).length ≤ 64 := by decide +kernel

end Sys2Proof.Tests
end

section
/-! The default permutation networks undo each other (42_permutation.md R147 item 1): every micro-step PERM_OP is its
own inverse, and FINALIZE_NET runs PREPARE_NET's steps in reverse order between two framing rotations that add to 32.
So both networks are bijections (R140), and the machine's parameters are legal (00_scope.md R7). -/

namespace Sys2Proof.Machine

/-- Rotations compose by adding their amounts modulo 32 (40_bitops.md R106). -/
theorem ror32_ror32 (v : Word) {a b : Nat} (ha : a < 32) (hb : b < 32) :
    ror32 (ror32 v a) b = ror32 v ((a + b) % 32) := by
  have hab : (a + b) % 32 < 32 := Nat.mod_lt _ (by decide)
  rw [ror32_eq_rotateRight v a ha, ror32_eq_rotateRight _ b hb, ror32_eq_rotateRight v _ hab]
  ext i hi
  simp only [BitVec.getElem_rotateRight, Nat.mod_eq_of_lt ha, Nat.mod_eq_of_lt hb, Nat.mod_eq_of_lt hab]
  split_ifs <;> congr 1 <;> omega

@[simp] theorem ror32_zero (v : Word) : ror32 v 0 = v := by simp [ror32]

/-- A left shift loses no bit of a value whose mask it loses no bit of. -/
theorem and_shiftLeft_ushiftRight (u : Word) {m : Word} {n : Nat} (hm : m <<< n >>> n = m) :
    (u &&& m) <<< n >>> n = u &&& m := by
  ext i hi
  have hbit : (m <<< n >>> n)[i] = m[i] := by rw [hm]
  simp only [BitVec.getElem_ushiftRight, BitVec.getLsbD_shiftLeft, BitVec.getElem_and, BitVec.getLsbD_and] at hbit ⊢
  grind

/-- PERM_OP swaps bits, so it undoes itself, when no bit of `m` leaves the word in `m << n` (42_permutation.md R141). -/
theorem permOp_permOp (x y : Word) {n : Nat} {m : Word} (hm : m <<< n >>> n = m) :
    permOp (permOp x y n m).1 (permOp x y n m).2 n m = (x, y) := by
  have hselect : ∀ t : Word, t <<< n >>> n = t → (x ^^^ t <<< n) >>> n ^^^ (y ^^^ t) = x >>> n ^^^ y := by
    intro t ht
    calc (x ^^^ t <<< n) >>> n ^^^ (y ^^^ t)
        = (x >>> n ^^^ t) ^^^ (y ^^^ t) := by rw [BitVec.ushiftRight_xor_distrib, ht]
      _ = x >>> n ^^^ y := by ac_nf; simp
  simp [permOp, hselect _ (and_shiftLeft_ushiftRight _ hm)]

/-- FINALIZE_NET undoes PREPARE_NET, by position (R147 item 1). -/
theorem defaultFinalize_defaultPrepare (a b : Word) :
    defaultFinalize (defaultPrepare a b).1 (defaultPrepare a b).2 = (a, b) := by
  simp [defaultFinalize, defaultPrepare, ror32_ror32, permOp_permOp]

/-- PREPARE_NET undoes FINALIZE_NET, by position (R147 item 1). -/
theorem defaultPrepare_defaultFinalize (a b : Word) :
    defaultPrepare (defaultFinalize a b).1 (defaultFinalize a b).2 = (a, b) := by
  simp [defaultFinalize, defaultPrepare, ror32_ror32, permOp_permOp]

theorem defaultPrepare_bijective : Function.Bijective fun p : Word × Word => defaultPrepare p.1 p.2 :=
  Function.bijective_iff_has_inverse.mpr
    ⟨fun q => defaultFinalize q.1 q.2, fun p => defaultFinalize_defaultPrepare p.1 p.2,
      fun q => defaultPrepare_defaultFinalize q.1 q.2⟩

theorem defaultFinalize_bijective : Function.Bijective fun p : Word × Word => defaultFinalize p.1 p.2 :=
  Function.bijective_iff_has_inverse.mpr
    ⟨fun q => defaultPrepare q.1 q.2, fun p => defaultPrepare_defaultFinalize p.1 p.2,
      fun q => defaultFinalize_defaultPrepare q.1 q.2⟩

/-- Settles O51: the two sizes by their values, the two networks because each is the other's inverse. -/
theorem machineParametersAreLegal : Obligations.MachineParametersAreLegal where
  keyBytes_multiple := by decide
  keyBytes_range := by decide
  dataBytes_multiple := by decide
  dataBytes_range := by decide
  prepare_bijective := defaultPrepare_bijective
  finalize_bijective := defaultFinalize_bijective

end Sys2Proof.Machine
end

section
/-! What a completing command can write (10_state.md R22, 60_exceptions.md R211, R212), said once for all thirteen
commands, and what follows for the parts of the state that a command leaves as they are. -/

namespace Sys2Proof.Machine

/-- The state a completing command can leave, `s` being the one before it: one constructor for each command and the
registers that R22 lists for it, and two for the ends that any command may have. The values written are left open but
for CBCBUF's, which fit in DATAMEM. -/
inductive CommandEffect (s : State) : Instr → State → Prop
  /-- ignored in the error state, or NOP -/
  | unchanged (i : Instr) : CommandEffect s i s
  /-- a violation is recorded and nothing else (R212) -/
  | raises (i : Instr) (v : Violation) : CommandEffect s i (s.raise v)
  | ror32 (n : BitVec 5) (v : Word) : CommandEffect s (.ror32 n) (s.setRes0 v)
  | extract (lsb : BitVec 5) (width : BitVec 6) (v : Word) : CommandEffect s (.extract lsb width) (s.setRes0 v)
  | mix (v : Word) : CommandEffect s .mix (s.setRes0 v)
  | prepare (p : Word × Word) : CommandEffect s .prepare (s.setRes p)
  | finalize (p : Word × Word) : CommandEffect s .finalize (s.setRes p)
  | round (k : BitVec 8) (st : Word × Word) : CommandEffect s (.round k) (s.setRound st)
  | bstart (st : Word × Word) : CommandEffect s .bstart (s.setRound st)
  | bfinish (out : Block) : CommandEffect s .bfinish (s.setDout out)
  | encblk (out : Block) (st : Word × Word) : CommandEffect s .encblk ((s.setDout out).setRound st)
  | cbcinit (acc : Block) : CommandEffect s .cbcinit (s.setPrev acc)
  | cbcblk (out : Block) (st : Word × Word) : CommandEffect s .cbcblk (((s.setDout out).setPrev out).setRound st)
  | cbcbuf (cipher : List Byte) (acc : Block) (st : Word × Word) (hfits : cipher.length ≤ wgcore.dataBytesMax) :
      CommandEffect s .cbcbuf (((s.setDatamem (s.datamem.writeBytes 0 cipher)).setPrev acc).setRound st)

/-- The error state is the only thing R211 step 1 adds to a command's body. -/
theorem CommandEffect.of_command {i : Instr} {s t : State} {body : Host.Outcome State Fault Refusal}
    (h : command s body = .next t) (hbody : body = .next t → CommandEffect s i t) : CommandEffect s i t := by
  obtain ⟨-, hc⟩ | ⟨-, hc⟩ := command_cases s body
  · obtain rfl : s = t := by simpa using hc.symm.trans h
    exact .unchanged i
  · exact hbody (hc.symm.trans h)

/-- The error state and KEYLEN_INVALID are all that R211 steps 1 and 3 add to a command's body. -/
theorem CommandEffect.of_keyCommand {i : Instr} {c : Config} {s t : State} {body : Host.Outcome State Fault Refusal}
    (h : keyCommand c s body = .next t) (hbody : body = .next t → CommandEffect s i t) : CommandEffect s i t :=
  .of_command h fun h => by
    split at h
    · exact hbody h
    · cases h
      exact .raises i _

/-- A ciphertext holds the whole blocks of its plaintext (44_chaining.md R190). -/
theorem encryptChained_length (c : Config) (plain key : List Byte) :
    (encryptChained c plain key).length = 8 * (plain.length / 8) := by
  rw [encryptChained_eq_flatten, length_flatten_blockBytes]
  simp

/-- The ciphertext of a buffer that CBCBUF accepts fits in DATAMEM (44_chaining.md R193). -/
theorem encryptChained_readData_length_le {c : Config} {s : State} {plain : List Byte} (hdlen : dlenOk c s.dlen = true)
    (hplain : readData s = some plain) (key : List Byte) : (encryptChained c plain key).length ≤ c.dataBytesMax := by
  have hlen : plain.length = s.dlen.toNat := Memory.length_of_readBytes _ _ _ _ hplain
  obtain ⟨-, hmax⟩ := (dlenOk_iff c s.dlen).mp hdlen
  rw [encryptChained_length]
  omega

/-- Everything a completing command can leave. -/
theorem exec_effect {i : Instr} {s t : State} (h : exec i s = .next t) : CommandEffect s i t := by
  cases i with
  | nop => exact .of_command h fun | rfl => .unchanged _
  | ror32 n => exact .of_command h fun | rfl => .ror32 n _
  | extract lsb width => exact .of_command h fun | rfl => .extract lsb width _
  | mix => exact .of_command h fun | rfl => .mix _
  | prepare => exact .of_command h fun | rfl => .prepare _
  | finalize => exact .of_command h fun | rfl => .finalize _
  | bstart => exact .of_command h fun | rfl => .bstart _
  | bfinish => exact .of_command h fun | rfl => .bfinish _
  | cbcinit => exact .of_command h fun | rfl => .cbcinit _
  | encblk =>
    refine .of_keyCommand h fun h => ?_
    obtain ⟨key, -, hkey⟩ := needBytes_eq_next h
    cases hkey
    exact .encblk _ _
  | cbcblk =>
    refine .of_keyCommand h fun h => ?_
    obtain ⟨key, -, hkey⟩ := needBytes_eq_next h
    cases hkey
    exact .cbcblk _ _
  | round k =>
    refine .of_keyCommand h fun h => ?_
    split at h
    · obtain ⟨chunk, -, hchunk⟩ := needBytes_eq_next h
      cases hchunk
      exact .round k _
    · cases h
      exact .raises _ _
  | cbcbuf =>
    refine .of_keyCommand h fun h => ?_
    split at h
    case isTrue hdlen =>
      obtain ⟨key, -, h⟩ := needBytes_eq_next h
      obtain ⟨plain, hplain, h⟩ := needBytes_eq_next h
      have hfits := encryptChained_readData_length_le hdlen hplain key
      simp only at h
      split at h
      · cases h
        exact CommandEffect.cbcbuf (s := s) _ (0#32, 0#32) (s.sl, s.sr) hfits
      · cases h
        exact .cbcbuf _ _ _ hfits
    case isFalse =>
      cases h
      exact .raises _ _

/-- Settles O32: no effect of a command reaches KEYMEM, a register that R22 says no command writes, or the host's
side. -/
theorem commandsNeverWriteTheirInputs : Obligations.CommandsNeverWriteTheirInputs := by
  intro i s t h
  cases exec_effect h <;> exact ⟨rfl, rfl, rfl, rfl, rfl, rfl, rfl, rfl, rfl⟩

/-- Settles O33: of each effect, the parts written are those that R22 lists for its command. -/
theorem eachRegisterIsWrittenOnlyByItsCommands : Obligations.EachRegisterIsWrittenOnlyByItsCommands := by
  intro i s t h
  cases exec_effect h <;> simp

end Sys2Proof.Machine
end

section
/-! The invariant of Safety.lean under every update that a step makes, and so under the step. -/

namespace Sys2Proof.Machine

/-- The invariant speaks of both memories, ERR and ECODE alone. -/
theorem inv_of_eq {s t : State} (hs : Safety.Inv s) (hkey : t.keymem = s.keymem) (hdata : t.datamem = s.datamem)
    (herr : t.err = s.err) (hcode : t.ecode = s.ecode) : Safety.Inv t := by
  simpa only [Safety.Inv, hkey, hdata, herr, hcode] using hs

/-- Every code that a violation records is one of 1 to 4 (60_exceptions.md R210). -/
theorem violationCode_range (v : Violation) : 1 ≤ (violationCode v).toNat ∧ (violationCode v).toNat ≤ 4 := by
  cases v <;> decide

theorem inv_raise {s : State} (hs : Safety.Inv s) (v : Violation) : Safety.Inv (s.raise v) := by
  obtain ⟨hkwf, hkin, hdwf, hdin, -, -⟩ := hs
  exact ⟨hkwf, hkin, hdwf, hdin, by simp, fun _ => violationCode_range v⟩

theorem inv_softReset {s : State} (hs : Safety.Inv s) : Safety.Inv s.softReset := by
  obtain ⟨hkwf, hkin, hdwf, hdin, -, -⟩ := hs
  exact ⟨hkwf, hkin, hdwf, hdin, by simp, by simp⟩

theorem inv_hardReset (s : State) : Safety.Inv s.hardReset := by
  simp [Safety.Inv]

/-- Bytes written inside KEYMEM keep its form and size. -/
theorem inv_writeBytes_keymem {s : State} (hs : Safety.Inv s) {a : Nat} {bs : List Byte}
    (hfits : a + bs.length ≤ wgcore.keyBytesMax) : Safety.Inv (s.setKeymem (s.keymem.writeBytes a bs)) := by
  obtain ⟨hkwf, hkin, hrest⟩ := hs
  exact ⟨Memory.writeBytes_wf bs _ a hkwf, Memory.writeBytes_within bs _ a _ hkin hfits, hrest⟩

/-- Bytes written inside DATAMEM keep its form and size. -/
theorem inv_writeBytes_datamem {s : State} (hs : Safety.Inv s) {a : Nat} {bs : List Byte}
    (hfits : a + bs.length ≤ wgcore.dataBytesMax) : Safety.Inv (s.setDatamem (s.datamem.writeBytes a bs)) := by
  obtain ⟨hkwf, hkin, hdwf, hdin, hflags⟩ := hs
  exact ⟨hkwf, hkin, Memory.writeBytes_wf bs _ a hdwf, Memory.writeBytes_within bs _ a _ hdin hfits, hflags⟩

theorem exec_keeps_inv {i : Instr} {s t : State} (hs : Safety.Inv s) (h : exec i s = .next t) : Safety.Inv t := by
  cases exec_effect h with
  | raises _ v => exact inv_raise hs v
  | cbcbuf cipher acc st hfits =>
    exact inv_of_eq (inv_writeBytes_datamem (a := 0) hs (by simpa using hfits)) rfl rfl rfl rfl
  | _ => exact inv_of_eq hs rfl rfl rfl rfl

theorem writeCmd_keeps_inv {w : Word} {s t : State} (hs : Safety.Inv s)
    (h : writeCmd w s = .next t) : Safety.Inv t := by
  cases hw : decode w with
  | ok i => exact exec_keeps_inv hs (writeCmd_of_ok hw s ▸ h)
  | error e =>
    rw [writeCmd_of_error hw] at h
    obtain ⟨-, hc⟩ | ⟨-, hc⟩ := command_cases s (.next (s.raise .illegalCommand)) <;> rw [hc] at h <;> cases h
    · exact hs
    · exact inv_raise hs _

theorem writeReg_keeps_inv {r : BusReg} {w : Word} {s t : State} (hs : Safety.Inv s) (h : writeReg r w s = .next t) :
    Safety.Inv t := by
  obtain ⟨-, hw⟩ | ⟨-, hw⟩ | ⟨d, -, -, hw⟩ | hw := writeReg_cases r w s <;> rw [hw] at h
  · exact writeCmd_keeps_inv hs h
  · cases h
    obtain ⟨-, hc⟩ | ⟨-, hc⟩ := writeCtrl_cases w s <;> rw [hc]
    · exact inv_softReset hs
    · exact hs
  · cases h
    exact inv_of_eq hs (by simp) (by simp) (by simp) (by simp)
  · cases h
    exact hs

/-- A window write of at most `n` bytes stays inside its window, which `target` has checked (20_memory.md R52). -/
theorem hostWrite_keeps_inv {n : Nat} {o : Offset} {w : Word} {s t : State} (hs : Safety.Inv s)
    (h : hostWrite wgcore n o w s = .next t) : Safety.Inv t := by
  have hresp : Safety.Inv (s.respond .done) := inv_of_eq hs rfl rfl rfl rfl
  have htake : ((packLe32 w).take n).length ≤ n := List.length_take_le n _
  obtain ⟨-, hw⟩ | ⟨r, -, hw⟩ | ⟨j, hj, hw⟩ | ⟨j, hj, hw⟩ := hostWrite_cases wgcore n o w s <;> rw [hw] at h
  · cases h
  · exact writeReg_keeps_inv hresp h
  · cases h
    obtain ⟨-, -, -, -, hfits⟩ := target_eq_key hj
    exact inv_writeBytes_keymem hresp (by omega)
  · cases h
    obtain ⟨-, -, -, hfits⟩ := target_eq_data hj
    exact inv_writeBytes_datamem hresp (by omega)

theorem hostRead_keeps_inv {n : Nat} {o : Offset} {s t : State} (hs : Safety.Inv s)
    (h : hostRead wgcore n o s = .next t) : Safety.Inv t := by
  obtain ⟨r, rfl⟩ := hostRead_eq_next h
  exact inv_of_eq hs rfl rfl rfl rfl

theorem hostAccess_keeps_inv {a : Access} {s t : State} (hs : Safety.Inv s) (h : hostAccess wgcore a s = .next t) :
    Safety.Inv t := by
  cases a with
  | readByte o => exact hostRead_keeps_inv hs h
  | readHalf o => exact hostRead_keeps_inv hs h
  | readWord o => exact hostRead_keeps_inv hs h
  | writeByte o v => exact hostWrite_keeps_inv hs h
  | writeHalf o v => exact hostWrite_keeps_inv hs h
  | writeWord o v => exact hostWrite_keeps_inv hs h

theorem applyInput_keeps_inv {i : Input} {s t : State} (hs : Safety.Inv s)
    (h : applyInput i s = .next t) : Safety.Inv t := by
  cases i with
  | access a => exact hostAccess_keeps_inv hs h
  | hardReset =>
    cases h
    exact inv_hardReset s
  | otherHost a => cases h

/-- Settles O35: by the pending input, down to the update it makes. -/
theorem stepKeepsTheInvariant : Obligations.StepKeepsTheInvariant := by
  intro s t hs h
  obtain ⟨-, hstep⟩ | ⟨i, rest, -, hstep⟩ := step_cases s <;> rw [hstep] at h
  · cases h
    exact hs
  · have hrest : Safety.Inv (s.setInputs rest) := inv_of_eq hs rfl rfl rfl rfl
    exact applyInput_keeps_inv hrest h

end Sys2Proof.Machine
end

section
/-! The host's word accesses to the registers (10_state.md R22 to R31): one rule for a read and one for a write, and what
each register answers and does. -/

namespace Sys2Proof.Machine

open Sys2Proof.Safety Sys2Proof.HostSide

/-- The bus admits a word access at every aligned offset of REGS (20_memory.md R51). -/
theorem target_of_aligned (c : Config) {o : Offset} (hlt : o.toNat < 0x100) (halign : o.toNat % 4 = 0) :
    target c 4 o = some (.reg (busRegAt o.toNat)) := by
  simp [target, hlt, halign]

/-- Above the data registers every offset of REGS is reserved (R31). -/
theorem busRegAt_of_ge {a : Nat} (h : 0x050 ≤ a) : busRegAt a = .reserved := by
  unfold busRegAt
  split <;> simp at h ⊢

/-- The word read of a register: the answer is set and the input consumed, and nothing else happens. -/
theorem step_readWord_reg {s : State} {o : Offset} {rest : List Input} {r : BusReg}
    (hin : NextAccess s (.readWord o) rest) (ho : target wgcore 4 o = some (.reg r)) :
    step s = .next { s with inputs := rest, response := .word (readReg wgcore s r) } := by
  calc step s = hostRead wgcore 4 o (s.setInputs rest) := step_of_input hin
    _ = .next ((s.setInputs rest).respond (.word (readReg wgcore (s.setInputs rest) r))) := by simp [hostRead, ho]
    _ = .next { s with inputs := rest, response := .word (readReg wgcore s r) } := by cases r <;> rfl

/-- The word write of a register, at the state with the input consumed and the write acknowledged. -/
theorem step_writeWord_reg {s : State} {o : Offset} {v : Word} {rest : List Input} {r : BusReg}
    (hin : NextAccess s (.writeWord o v) rest) (ho : target wgcore 4 o = some (.reg r)) :
    step s = writeReg r v { s with inputs := rest, response := .done } := by
  calc step s = hostWrite wgcore 4 o v (s.setInputs rest) := step_of_input hin
    _ = writeReg r v ((s.setInputs rest).respond .done) := by simp [hostWrite, ho]

/-- Settles O5: a CMD write is `writeCmd`, which executes a word that decodes. -/
theorem stepExecutesTheDecodedCommand : Obligations.StepExecutesTheDecodedCommand := by
  intro s w rest i hin hw
  exact (step_writeWord_reg hin (target_cmdOffset wgcore)).trans (writeCmd_of_ok hw _)

/-- Settles O6: `step` only takes inputs, and there is none. -/
theorem stepWithoutInputChangesNothing : Obligations.StepWithoutInputChangesNothing :=
  fun _ hnil => step_of_nil hnil

/-- The four registers that R22 does not let the host write. -/
theorem hostWritable_iff (r : Reg) :
    hostWritable r = true ↔ ¬ (r = .res0 ∨ r = .res1 ∨ r = .dout0 ∨ r = .dout1) := by
  cases r <;> decide

/-- The value of every register after one is stored. -/
theorem State.reg_setReg (s : State) (r r' : Reg) (v : Word) :
    (s.setReg r v).reg r' = if r' = r then v else s.reg r' := by
  split_ifs with h
  · rw [h, State.reg_setReg_self]
  · exact State.reg_setReg_of_ne s r r' v h

/-- A data register written by the host: every register after it (R23). -/
theorem reg_hostWritten (s : State) (r r' : Reg) (v : Word) :
    (if hostWritable r then s.setReg r v else s).reg r' = if r' = r ∧ hostWritable r then v else s.reg r' := by
  by_cases hw : hostWritable r <;> simp [hw, State.reg_setReg]

/-- Settles O36: the register at `regOffset r` is `r`, which `writeReg` stores unless it is read-only. -/
theorem dataRegistersReadAndWriteOverTheBus : Obligations.DataRegistersReadAndWriteOverTheBus := by
  intro s r v rest
  refine ⟨fun hin => step_readWord_reg hin (target_regOffset wgcore r), fun hin => ?_⟩
  refine ⟨_, step_writeWord_reg hin (target_regOffset wgcore r), fun r' => ?_, ?_⟩
  · rw [reg_hostWritten]
    simp only [hostWritable_iff]
    rfl
  · split_ifs <;> simp

/-- Settles O41: the offsets of R31 are those of no register. -/
theorem reservedOffsetsReadZeroAndIgnoreWrites : Obligations.ReservedOffsetsReadZeroAndIgnoreWrites := by
  intro s o v rest ho
  have htarget : target wgcore 4 o = some (.reg .reserved) := by
    rw [target_of_aligned wgcore (by omega) (by omega)]
    obtain h | ⟨h, -, -⟩ := ho
    · rw [h]
      rfl
    · rw [busRegAt_of_ge h]
  exact ⟨fun hin => step_readWord_reg hin htarget, fun hin => step_writeWord_reg hin htarget⟩

/-- Settles O40: bit 0 of a CTRL write decides, and CTRL and CMD read 0. -/
theorem ctrlBitZeroSoftResets : Obligations.CtrlBitZeroSoftResets := by
  intro s v rest
  have hctrl : target wgcore 4 0x00C#12 = some (.reg .ctrl) := rfl
  refine ⟨fun hin hv => ?_, fun hin hv => ?_, ?_⟩
  · rw [step_writeWord_reg hin hctrl, writeReg, writeCtrl, if_pos hv]
    rfl
  · rw [step_writeWord_reg hin hctrl, writeReg, writeCtrl, hv]
    rfl
  · rintro (hin | hin)
    · exact step_readWord_reg hin hctrl
    · exact step_readWord_reg hin (target_cmdOffset wgcore)

/-- The low field of two halves put together is the low half. -/
theorem extractLsb'_halves_low (a b : BitVec 16) :
    (a.setWidth 32 ||| (b.setWidth 32 <<< 16)).extractLsb' 0 16 = a := by
  ext i hi
  have hlt : i < 32 := by omega
  simp [hi, hlt]

/-- The high field of two halves put together is the high half. -/
theorem extractLsb'_halves_high (a b : BitVec 16) :
    (a.setWidth 32 ||| (b.setWidth 32 <<< 16)).extractLsb' 16 16 = b := by
  ext i hi
  have hlt : 16 + i < 32 ∧ i < 32 := by omega
  simp [hlt, BitVec.getLsbD_eq_getElem hi]

/-- Settles O38: ID and CONFIG read what R26 and R27 state and ignore writes. -/
theorem idAndConfigAreConstants : Obligations.IdAndConfigAreConstants := by
  intro s v rest
  have hid : target wgcore 4 0x000#12 = some (.reg .id) := rfl
  have hconfig : target wgcore 4 0x004#12 = some (.reg .config) := rfl
  exact ⟨fun hin => step_readWord_reg hin hid, fun hin => step_readWord_reg hin hconfig,
    fun hin => step_writeWord_reg hin hid, fun hin => step_writeWord_reg hin hconfig,
    fun c => ⟨extractLsb'_halves_low _ _, extractLsb'_halves_high _ _⟩⟩

/-- Every bit of STATUS (R28). -/
theorem getLsbD_statusWord (c : Config) (s : State) (i : Nat) :
    (statusWord c s).getLsbD i =
      if i = 0 then s.err else if i = 1 then keyOk c s.keylen else if i < 4 then false
      else if i < 8 then s.ecode.getLsbD (i - 4) else (nRounds c s.keylen).getLsbD (i - 8) := by
  have hcode : 4 ≤ i - 4 → s.ecode.getLsbD (i - 4) = false := BitVec.getLsbD_of_ge _ _
  have hrounds : 8 ≤ i - 8 → (nRounds c s.keylen).getLsbD (i - 8) = false := BitVec.getLsbD_of_ge _ _
  simp only [statusWord, BitVec.getLsbD_or, BitVec.getLsbD_shiftLeft, BitVec.getLsbD_setWidth, BitVec.getLsbD_ofBool]
  grind

/-- NROUNDS as a number: the byte holds every key length that KEYOK accepts (R28). -/
theorem nRounds_toNat (w : Word) : (nRounds wgcore w).toNat = if keyOk wgcore w then w.toNat / 16 else 0 := by
  unfold nRounds
  split_ifs with h
  · obtain ⟨-, -, hmax⟩ := (keyOk_iff wgcore w).mp h
    have hlt : w.toNat / 16 < 2 ^ 8 := by
      have : wgcore.keyBytesMax = 128 := rfl
      omega
    exact Nat.mod_eq_of_lt hlt
  · rfl

/-- Settles O39: every field is the run of bits that `getLsbD_statusWord` gives it. -/
theorem statusReadsItsFields : Obligations.StatusReadsItsFields := by
  intro s v rest
  have hstatus : target wgcore 4 0x008#12 = some (.reg .status) := rfl
  have hbit := getLsbD_statusWord wgcore s
  have hkeyok : (statusWord wgcore s).getLsbD 1 = keyOk wgcore s.keylen := hbit 1
  have hnrounds : (statusWord wgcore s).extractLsb' 8 8 = nRounds wgcore s.keylen := by
    ext i hi
    rw [BitVec.getElem_extractLsb', hbit]
    grind
  refine ⟨fun hin => ⟨_, step_readWord_reg hin hstatus, ?_⟩, fun hin => step_writeWord_reg hin hstatus⟩
  simp only [readReg, hkeyok, hnrounds, nRounds_toNat]
  refine ⟨hbit 0, keyOk_iff wgcore s.keylen, ?bits_2_3, ?ecode, trivial, ?bits_16_31⟩
  all_goals
    ext i hi
    rw [BitVec.getElem_extractLsb', hbit]
  case bits_2_3 => grind
  case ecode => grind
  case bits_16_31 =>
    have hrounds : (nRounds wgcore s.keylen).getLsbD (16 + i - 8) = false := BitVec.getLsbD_of_ge _ _ (by omega)
    grind

end Sys2Proof.Machine
end

section
/-! The rules of the bus (20_memory.md R50 to R55): what an access reaches, and what a read and a write of each target
answer. -/

namespace Sys2Proof.Machine

/-- The bus admits a byte, or an aligned word, wholly inside the KEYMEM window (R52). -/
theorem target_of_key {n : Nat} {o : Offset} (hshape : n = 1 ∨ n = 4 ∧ o.toNat % 4 = 0) (hlo : 0x100 ≤ o.toNat)
    (hfits : o.toNat - 0x100 + n ≤ 128) : target wgcore n o = some (.key (o.toNat - 0x100)) := by
  have hhi : o.toNat < 0x500 := by omega
  have hreg : ¬ o.toNat < 0x100 := by omega
  simp [target, windowShape, wgcore, hreg, hhi, hshape, hfits]

/-- The bus admits a byte, or an aligned word, wholly inside the DATAMEM window (R52). -/
theorem target_of_data {n : Nat} {o : Offset} (hshape : n = 1 ∨ n = 4 ∧ o.toNat % 4 = 0) (hlo : 0x800 ≤ o.toNat)
    (hfits : o.toNat - 0x800 + n ≤ 64) : target wgcore n o = some (.data (o.toNat - 0x800)) := by
  have hreg : ¬ o.toNat < 0x100 := by omega
  have hkey : ¬ o.toNat < 0x500 := by omega
  have hgap : ¬ o.toNat < 0x800 := by omega
  simp [target, windowShape, wgcore, hreg, hkey, hgap, hshape, hfits]

/-- A read that may fail raises UNWRITTEN_READ only, when what follows it does. -/
theorem needBytes_fault_eq_unwrittenRead {α : Type} {r : Option α} {body : α → Host.Outcome State Fault Refusal}
    {f : Fault} (h : needBytes r body = .fault f) (hbody : ∀ x, body x = .fault f → f = .unwrittenRead) :
    f = .unwrittenRead := by
  obtain ⟨-, hf⟩ | ⟨x, -, hx⟩ := needBytes_eq_fault h
  · exact hf
  · exact hbody x hx

/-- What a read of `n` bytes from index `j` of a memory's window answers, and the fault when one is UNWRITTEN. -/
def windowAnswer (m : Memory) (j n : Nat) (s : State) : Host.Outcome State Fault Refusal :=
  needBytes (m.readBytes j n) fun bs => .next (s.respond (readResponse n bs))

/-- A window read that completes only answers the host, and gives the same answer in every state. -/
theorem windowAnswer_eq_next {m : Memory} {j n : Nat} {s t : State} (h : windowAnswer m j n s = .next t) :
    ∃ r, t = s.respond r ∧ ∀ u, windowAnswer m j n u = .next (u.respond r) := by
  obtain ⟨bs, hbs, hnext⟩ := needBytes_eq_next h
  cases hnext
  exact ⟨_, rfl, fun u => by rw [windowAnswer, hbs, needBytes_some]⟩

theorem windowAnswer_ne_busError (m : Memory) (j n : Nat) (s : State) : windowAnswer m j n s ≠ .fault .busError :=
  fun h => nomatch needBytes_fault_eq_unwrittenRead h fun _ => nofun

theorem hostRead_reg {c : Config} {n : Nat} {o : Offset} {r : BusReg} (s : State)
    (ho : target c n o = some (.reg r)) : hostRead c n o s = .next (s.respond (.word (readReg c s r))) := by
  simp only [hostRead, ho]

theorem hostRead_key {c : Config} {n j : Nat} {o : Offset} (s : State) (ho : target c n o = some (.key j)) :
    hostRead c n o s = windowAnswer s.keymem j n s := by
  simp only [hostRead, ho]
  rfl

theorem hostRead_data {c : Config} {n j : Nat} {o : Offset} (s : State) (ho : target c n o = some (.data j)) :
    hostRead c n o s = windowAnswer s.datamem j n s := by
  simp only [hostRead, ho]
  rfl

/-- Everything a host read can be. -/
theorem hostRead_cases (c : Config) (n : Nat) (o : Offset) (s : State) :
    (target c n o = none ∧ hostRead c n o s = .fault .busError) ∨
    (∃ r, target c n o = some (.reg r) ∧ hostRead c n o s = .next (s.respond (.word (readReg c s r)))) ∨
    (∃ j, target c n o = some (.key j) ∧ hostRead c n o s = windowAnswer s.keymem j n s) ∨
    (∃ j, target c n o = some (.data j) ∧ hostRead c n o s = windowAnswer s.datamem j n s) := by
  cases h : target c n o with
  | none => exact .inl ⟨rfl, by simp [hostRead, h]⟩
  | some t =>
    cases t with
    | reg r => exact .inr (.inl ⟨r, rfl, hostRead_reg s h⟩)
    | key j => exact .inr (.inr (.inl ⟨j, rfl, hostRead_key s h⟩))
    | data j => exact .inr (.inr (.inr ⟨j, rfl, hostRead_data s h⟩))

/-- A write into the KEYMEM window stores the low `n` bytes and acknowledges. -/
theorem hostWrite_key {c : Config} {n j : Nat} {o : Offset} (w : Word) (s : State) (ho : target c n o = some (.key j)) :
    hostWrite c n o w s =
      .next { s with keymem := s.keymem.writeBytes j ((packLe32 w).take n), response := .done } := by
  simp only [hostWrite, ho]
  rfl

/-- A write into the DATAMEM window stores the low `n` bytes and acknowledges. -/
theorem hostWrite_data {c : Config} {n j : Nat} {o : Offset} (w : Word) (s : State) (ho : target c n o = some (.data j)) :
    hostWrite c n o w s =
      .next { s with datamem := s.datamem.writeBytes j ((packLe32 w).take n), response := .done } := by
  simp only [hostWrite, ho]
  rfl

end Sys2Proof.Machine
end

section
/-! Which accesses the bus admits (20_memory.md R51 to R53), and that nothing else is a bus error (R55). -/

namespace Sys2Proof.Machine

open Sys2Proof.Safety

/-- The accesses that the bus turns away, in words, for the sizes of the machine. -/
theorem target_eq_none_iff (n : Nat) (o : Offset) :
    target wgcore n o = none ↔
      ¬ ((o.toNat < 0x100 ∧ n = 4 ∧ o.toNat % 4 = 0) ∨
        (0x100 ≤ o.toNat ∧ o.toNat < 0x500 ∧ (n = 1 ∨ (n = 4 ∧ o.toNat % 4 = 0)) ∧ o.toNat - 0x100 + n ≤ 128) ∨
        (0x800 ≤ o.toNat ∧ (n = 1 ∨ (n = 4 ∧ o.toNat % 4 = 0)) ∧ o.toNat - 0x800 + n ≤ 64)) := by
  simp only [target, windowShape, wgcore, Bool.or_eq_true, Bool.and_eq_true, decide_eq_true_eq]
  split_ifs <;> simp only [true_iff, false_iff] <;> omega

/-- A command that faults does so in its body. -/
theorem command_eq_fault {s : State} {body : Host.Outcome State Fault Refusal} {f : Fault}
    (h : command s body = .fault f) : body = .fault f := by
  obtain ⟨-, hc⟩ | ⟨-, hc⟩ := command_cases s body <;> rw [hc] at h
  · cases h
  · exact h

/-- A command that uses the key and faults does so in its body. -/
theorem keyCommand_eq_fault {c : Config} {s : State} {body : Host.Outcome State Fault Refusal} {f : Fault}
    (h : keyCommand c s body = .fault f) : body = .fault f := by
  have h := command_eq_fault h
  split at h
  · exact h
  · cases h

/-- UNWRITTEN_READ is the one fault of a command (60_exceptions.md R216). -/
theorem exec_fault_eq_unwrittenRead {i : Instr} {s : State} {f : Fault} (h : exec i s = .fault f) :
    f = .unwrittenRead := by
  cases i with
  | encblk => exact needBytes_fault_eq_unwrittenRead (keyCommand_eq_fault h) fun _ => nofun
  | cbcblk => exact needBytes_fault_eq_unwrittenRead (keyCommand_eq_fault h) fun _ => nofun
  | round k =>
    have h := keyCommand_eq_fault h
    split at h
    · exact needBytes_fault_eq_unwrittenRead h fun _ => nofun
    · cases h
  | cbcbuf =>
    have h := keyCommand_eq_fault h
    split at h
    · refine needBytes_fault_eq_unwrittenRead h fun key h => needBytes_fault_eq_unwrittenRead h fun plain h => ?_
      simp only at h
      split at h <;> cases h
    · cases h
  | _ => exact nomatch command_eq_fault h

theorem writeReg_ne_busError (r : BusReg) (w : Word) (s : State) : writeReg r w s ≠ .fault .busError := by
  intro h
  obtain ⟨-, hw⟩ | ⟨-, hw⟩ | ⟨d, -, -, hw⟩ | hw := writeReg_cases r w s <;> rw [hw] at h
  · cases hd : decode w with
    | ok i =>
      rw [writeCmd_of_ok hd] at h
      exact nomatch exec_fault_eq_unwrittenRead h
    | error e =>
      rw [writeCmd_of_error hd] at h
      exact nomatch command_eq_fault h
  all_goals cases h

theorem hostWrite_eq_busError_iff {c : Config} {n : Nat} {o : Offset} {w : Word} {s : State} :
    hostWrite c n o w s = .fault .busError ↔ target c n o = none := by
  obtain ⟨ho, hw⟩ | ⟨r, ho, hw⟩ | ⟨j, ho, hw⟩ | ⟨j, ho, hw⟩ := hostWrite_cases c n o w s <;> rw [ho, hw]
  · simp
  · simpa using writeReg_ne_busError r w _
  · simp
  · simp

theorem hostRead_eq_busError_iff {c : Config} {n : Nat} {o : Offset} {s : State} :
    hostRead c n o s = .fault .busError ↔ target c n o = none := by
  obtain ⟨ho, hr⟩ | ⟨r, ho, hr⟩ | ⟨j, ho, hr⟩ | ⟨j, ho, hr⟩ := hostRead_cases c n o s <;> rw [ho, hr]
  · simp
  · simp
  · simpa using windowAnswer_ne_busError _ j n s
  · simpa using windowAnswer_ne_busError _ j n s

/-- An access is a bus error exactly when it reaches nothing (20_memory.md R55). -/
theorem hostAccess_eq_busError_iff {c : Config} {a : Access} {s : State} :
    hostAccess c a s = .fault .busError ↔ target c (accessWidth a) (accessOffset a) = none := by
  cases a with
  | readByte o => exact hostRead_eq_busError_iff
  | readHalf o => exact hostRead_eq_busError_iff
  | readWord o => exact hostRead_eq_busError_iff
  | writeByte o v => exact hostWrite_eq_busError_iff
  | writeHalf o v => exact hostWrite_eq_busError_iff
  | writeWord o v => exact hostWrite_eq_busError_iff

/-- Settles O44: a bus error is an access that `target` turns away, and those are `target_eq_none_iff`'s. -/
theorem busErrorExactlyOnUnadmittedAccess : Obligations.BusErrorExactlyOnUnadmittedAccess := by
  intro s a rest hin
  rw [step_of_input hin]
  exact hostAccess_eq_busError_iff.trans (target_eq_none_iff _ _)

/-- Settles O37: a read of any width is a `hostRead`, which only answers. -/
theorem readsHaveNoSideEffects : Obligations.ReadsHaveNoSideEffects := by
  intro s t o a rest ha hin h
  rw [step_of_input hin] at h
  have hread : ∃ n, hostRead wgcore n o (s.setInputs rest) = .next t := by
    obtain rfl | rfl | rfl := ha
    · exact ⟨1, h⟩
    · exact ⟨2, h⟩
    · exact ⟨4, h⟩
  obtain ⟨n, hn⟩ := hread
  obtain ⟨r, rfl⟩ := hostRead_eq_next hn
  rfl

end Sys2Proof.Machine
end

section
/-! The memory windows (20_memory.md R52, R54): an admitted byte or word access reaches the bytes of KEYMEM or DATAMEM
from the offset's index on, in little-endian order. -/

namespace Sys2Proof.Machine

open Sys2Proof.Safety

/-- Byte `i` of a packed word is its bits 8i+7:8i. -/
theorem getElem?_packLe32 (w : Word) {i : Nat} (hi : i < 4) : (packLe32 w)[i]? = some (w.extractLsb' (8 * i) 8) := by
  interval_cases i <;> rfl

/-- Four bytes are the bytes of the word they make. -/
theorem packLe32_le32 {b : List Byte} (h : b.length = 4) : packLe32 (le32 b 0) = b := by
  match b, h with
  | [a0, a1, a2, a3], _ => exact congrArg (List.take 4) (blockBytes_blockOf [a0, a1, a2, a3, 0#8, 0#8, 0#8, 0#8] rfl)

/-- The one byte of a byte write. -/
theorem take_one_packLe32_setWidth (b : Byte) : (packLe32 (b.setWidth 32)).take 1 = [b] := by
  simp [packLe32, BitVec.extractLsb'_setWidth_of_le]

/-- A memory after a word is written into its window. -/
theorem Memory.read_writeBytes_packLe32 (m : Memory) (v : Word) (j a : Nat) :
    (m.writeBytes j ((packLe32 v).take 4)).read a =
      if j ≤ a ∧ a < j + 4 then some (v.extractLsb' (8 * (a - j)) 8) else m.read a := by
  have htake : (packLe32 v).take 4 = packLe32 v := rfl
  rw [htake, Memory.read_writeBytes, packLe32_length]
  split_ifs with h
  · exact getElem?_packLe32 v (by omega)
  · rfl

/-- A memory after a byte is written into its window. -/
theorem Memory.read_writeBytes_byte (m : Memory) (b : Byte) (j a : Nat) :
    (m.writeBytes j ((packLe32 (b.setWidth 32)).take 1)).read a = if a = j then some b else m.read a := by
  rw [take_one_packLe32_setWidth, Memory.writeBytes_cons, Memory.writeBytes_nil, Memory.read_write]

/-- Settles O45: each write is `writeBytes` at the index `target` gives, whose bytes the two memory laws above read. -/
theorem windowWritesStoreLittleEndian : Obligations.WindowWritesStoreLittleEndian := by
  intro s o v b rest
  refine ⟨fun hin hlo halign hfits => ?_, fun hin hlo hfits => ?_, fun hin hlo halign hfits => ?_,
    fun hin hlo hfits => ?_⟩
  · exact ⟨_, (step_of_input hin).trans (hostWrite_key v _ (target_of_key (.inr ⟨rfl, halign⟩) hlo hfits)),
      Memory.read_writeBytes_packLe32 _ v _⟩
  · exact ⟨_, (step_of_input hin).trans (hostWrite_key _ _ (target_of_key (.inl rfl) hlo hfits)),
      Memory.read_writeBytes_byte _ b _⟩
  · exact ⟨_, (step_of_input hin).trans (hostWrite_data v _ (target_of_data (.inr ⟨rfl, halign⟩) hlo hfits)),
      Memory.read_writeBytes_packLe32 _ v _⟩
  · exact ⟨_, (step_of_input hin).trans (hostWrite_data _ _ (target_of_data (.inl rfl) hlo hfits)),
      Memory.read_writeBytes_byte _ b _⟩

theorem windowAnswer_of_unwritten {m : Memory} {j n : Nat} (s : State) (h : ∃ i, i < n ∧ m.read (j + i) = none) :
    windowAnswer m j n s = .fault .unwrittenRead := by
  rw [windowAnswer, (Memory.readBytes_eq_none n m j).mpr h, needBytes_none]

/-- A word read of written bytes answers the word that those bytes are, least significant first (R54). -/
theorem windowAnswer_word {m : Memory} {j : Nat} (s : State) (h : ∀ i, i < 4 → m.read (j + i) ≠ none) :
    ∃ w : Word, windowAnswer m j 4 s = .next (s.respond (.word w)) ∧
      ∀ i, i < 4 → m.read (j + i) = some (w.extractLsb' (8 * i) 8) := by
  have hsome : m.readBytes j 4 ≠ none := fun hnone => by
    obtain ⟨i, hi, hread⟩ := (Memory.readBytes_eq_none 4 m j).mp hnone
    exact h i hi hread
  obtain ⟨bs, hbs⟩ := Option.ne_none_iff_exists'.mp hsome
  obtain ⟨hlen, hread⟩ := (Memory.readBytes_eq_some 4 m j bs).mp hbs
  refine ⟨le32 bs 0, by rw [windowAnswer, hbs]; rfl, fun i hi => ?_⟩
  calc m.read (j + i) = bs[i]? := hread i hi
    _ = (packLe32 (le32 bs 0))[i]? := by rw [packLe32_le32 hlen]
    _ = some ((le32 bs 0).extractLsb' (8 * i) 8) := getElem?_packLe32 _ hi

theorem windowAnswer_byte_of_unwritten {m : Memory} {j : Nat} (s : State) (h : m.read j = none) :
    windowAnswer m j 1 s = .fault .unwrittenRead :=
  windowAnswer_of_unwritten s ⟨0, Nat.one_pos, h⟩

theorem windowAnswer_byte {m : Memory} {j : Nat} {b : Byte} (s : State) (h : m.read j = some b) :
    windowAnswer m j 1 s = .next (s.respond (.byte b)) := by
  have hbs : m.readBytes j 1 = some [b] := by simp [Memory.readBytes, h]
  rw [windowAnswer, hbs]
  rfl

/-- Settles O46: each read is the window's answer at the index `target` gives. -/
theorem windowReadsReturnLittleEndian : Obligations.WindowReadsReturnLittleEndian := by
  intro s o rest
  refine ⟨fun hin hlo halign hfits => ?_, fun hin hlo hfits => ?_, fun hin hlo halign hfits => ?_,
    fun hin hlo hfits => ?_⟩
  · have hstep := (step_of_input hin).trans (hostRead_key _ (target_of_key (.inr ⟨rfl, halign⟩) hlo hfits))
    rw [hstep]
    exact ⟨windowAnswer_of_unwritten _, windowAnswer_word _⟩
  · have hstep := (step_of_input hin).trans (hostRead_key _ (target_of_key (.inl rfl) hlo hfits))
    rw [hstep]
    dsimp only
    split
    case h_1 hread => exact windowAnswer_byte_of_unwritten _ hread
    case h_2 b hread => exact windowAnswer_byte _ hread
  · have hstep := (step_of_input hin).trans (hostRead_data _ (target_of_data (.inr ⟨rfl, halign⟩) hlo hfits))
    rw [hstep]
    exact ⟨windowAnswer_of_unwritten _, windowAnswer_word _⟩
  · have hstep := (step_of_input hin).trans (hostRead_data _ (target_of_data (.inl rfl) hlo hfits))
    rw [hstep]
    dsimp only
    split
    case h_1 hread => exact windowAnswer_byte_of_unwritten _ hread
    case h_2 b hread => exact windowAnswer_byte _ hread

end Sys2Proof.Machine
end

section
/-! Repeating an access (20_memory.md R57): every update that an access other than a CMD write makes is the same made
twice as made once. -/

namespace Sys2Proof.Machine

open Sys2Proof.Safety

/-- Writing a byte twice is writing it once, as lists. -/
theorem Memory.write_write_self (m : Memory) (a : Nat) (v : Byte) : (m.write a v).write a v = m.write a v := by
  induction m with
  | nil => simp [Memory.write]
  | cons x m ih =>
    obtain ⟨k, w⟩ := x
    by_cases hlt : a < k
    · simp [Memory.write, hlt]
    · by_cases heq : a = k
      · simp [Memory.write, heq]
      · simp [Memory.write, hlt, heq, ih]

/-- Writes at two indices commute, as lists, canonical or not: at each entry, the lower write goes in before it, replaces
it, or passes it. -/
theorem Memory.write_write_comm (m : Memory) {a b : Nat} (hab : a < b) (v w : Byte) :
    (m.write b w).write a v = (m.write a v).write b w := by
  have hba : ¬ b < a := by omega
  have hne : b ≠ a := by omega
  induction m with
  | nil => simp [Memory.write, hab, hba, hne]
  | cons x m ih =>
    obtain ⟨k, u⟩ := x
    obtain hlt | rfl | hgt := lt_trichotomy a k
    · obtain hb | rfl | hb := lt_trichotomy b k
      · simp [Memory.write, hab, hba, hne, hlt, hb]
      · simp [Memory.write, hba, hne, hlt]
      · simp [Memory.write, hba, hne, hlt, hb.not_gt, hb.ne']
    · simp [Memory.write, hba, hne]
    · have hkb : k < b := hgt.trans hab
      simp [Memory.write, hgt.not_gt, hgt.ne', hkb.not_gt, hkb.ne', ih]

/-- A byte write below a run of bytes commutes with writing the run. -/
theorem Memory.write_writeBytes_comm (bs : List Byte) (m : Memory) {a b : Nat} (hab : a < b) (v : Byte) :
    (m.writeBytes b bs).write a v = (m.write a v).writeBytes b bs := by
  induction bs generalizing m b with
  | nil => rfl
  | cons x bs ih =>
    have hab' : a < b + 1 := by omega
    simp only [Memory.writeBytes_cons, ih _ hab', Memory.write_write_comm m hab]

/-- Writing a run of bytes twice is writing it once. -/
theorem Memory.writeBytes_writeBytes_self (bs : List Byte) (m : Memory) (a : Nat) :
    (m.writeBytes a bs).writeBytes a bs = m.writeBytes a bs := by
  induction bs generalizing m a with
  | nil => rfl
  | cons x bs ih =>
    simp only [Memory.writeBytes_cons, Memory.write_writeBytes_comm _ _ (Nat.lt_succ_self a),
      Memory.write_write_self, ih]

/-- An operation that has gone from `s` to `t` has left the inputs to come alone, and changes nothing more when it is
made again at `t`, whatever is to come by then. -/
structure RepeatsAt (op : State → Host.Outcome State Fault Refusal) (s t : State) : Prop where
  inputs : t.inputs = s.inputs
  again : ∀ rest, op (t.setInputs rest) = .next (t.setInputs rest)

/-- A CTRL write is the soft reset in every state or nothing in any, by its bit 0 (10_state.md R29). -/
theorem writeCtrl_eq (w : Word) : writeCtrl w = State.softReset ∨ writeCtrl w = id := by
  cases hw : w.getLsbD 0 with
  | true => exact .inl (funext fun s => if_pos hw)
  | false => exact .inr (funext fun s => if_neg (hw ▸ Bool.false_ne_true))

/-- A register write other than CMD's, with its acknowledgement. -/
theorem writeReg_repeats {r : BusReg} {w : Word} {s t : State} (hr : r ≠ .cmd)
    (h : writeReg r w (s.respond .done) = .next t) : RepeatsAt (fun u => writeReg r w (u.respond .done)) s t := by
  cases r with
  | cmd => exact absurd rfl hr
  | ctrl =>
    cases h
    obtain hctrl | hctrl := writeCtrl_eq w <;>
      exact ⟨by rw [hctrl]; rfl, fun rest => by simp only [writeReg, hctrl]; rfl⟩
  | data d =>
    cases h
    cases hw : hostWritable d
    · exact ⟨by simp, fun rest => by simp [writeReg, hw]; rfl⟩
    · exact ⟨by simp, fun rest => by simp only [writeReg, hw, if_true]; cases d <;> rfl⟩
  | _ =>
    cases h
    exact ⟨rfl, fun _ => rfl⟩

/-- A host write that reaches anything but CMD. -/
theorem hostWrite_repeats {c : Config} {n : Nat} {o : Offset} {w : Word} {s t : State}
    (hcmd : target c n o ≠ some (.reg .cmd)) (h : hostWrite c n o w s = .next t) : RepeatsAt (hostWrite c n o w) s t := by
  obtain ⟨-, hw⟩ | ⟨r, ho, hw⟩ | ⟨j, ho, hw⟩ | ⟨j, ho, hw⟩ := hostWrite_cases c n o w s <;> rw [hw] at h
  · cases h
  · have hr : r ≠ .cmd := fun hr => hcmd (hr ▸ ho)
    obtain ⟨hinputs, hagain⟩ := writeReg_repeats hr h
    exact ⟨hinputs, fun rest => by simpa [hostWrite, ho] using hagain rest⟩
  · cases h
    exact ⟨rfl, fun rest => by
      rw [hostWrite_key w _ ho]
      simp only [State.setInputs_keymem, State.setKeymem_keymem, Memory.writeBytes_writeBytes_self]
      rfl⟩
  · cases h
    exact ⟨rfl, fun rest => by
      rw [hostWrite_data w _ ho]
      simp only [State.setInputs_datamem, State.setDatamem_datamem, Memory.writeBytes_writeBytes_self]
      rfl⟩

/-- No register reads the host's side of the state. -/
theorem readReg_respond_setInputs (c : Config) (s : State) (x : Response) (rest : List Input) (r : BusReg) :
    readReg c ((s.respond x).setInputs rest) r = readReg c s r := by
  cases r <;> rfl

/-- A host read answers the same again. -/
theorem hostRead_repeats {c : Config} {n : Nat} {o : Offset} {s t : State} (h : hostRead c n o s = .next t) :
    RepeatsAt (hostRead c n o) s t := by
  obtain ⟨-, hr⟩ | ⟨r, ho, hr⟩ | ⟨j, ho, hr⟩ | ⟨j, ho, hr⟩ := hostRead_cases c n o s <;> rw [hr] at h
  · cases h
  · cases h
    exact ⟨rfl, fun rest => by rw [hostRead_reg _ ho, readReg_respond_setInputs]; rfl⟩
  · obtain ⟨x, rfl, hanswer⟩ := windowAnswer_eq_next h
    exact ⟨rfl, fun rest => (hostRead_key _ ho).trans (hanswer _)⟩
  · obtain ⟨x, rfl, hanswer⟩ := windowAnswer_eq_next h
    exact ⟨rfl, fun rest => (hostRead_data _ ho).trans (hanswer _)⟩

/-- CMD is reached by the word access at its offset alone (10_state.md R30). -/
theorem target_eq_cmd {c : Config} {n : Nat} {o : Offset} (h : target c n o = some (.reg .cmd)) :
    n = 4 ∧ o = 0x010#12 := by
  obtain ⟨-, hn, -, hreg⟩ := target_eq_reg h
  refine ⟨hn, BitVec.eq_of_toNat_eq ?_⟩
  unfold busRegAt at hreg
  split at hreg <;> cases hreg
  assumption

theorem hostAccess_repeats {c : Config} {a : Access} {s t : State} (hcmd : ∀ w, a ≠ .writeWord 0x010#12 w)
    (h : hostAccess c a s = .next t) : RepeatsAt (hostAccess c a) s t := by
  cases a with
  | readByte o => exact hostRead_repeats h
  | readHalf o => exact hostRead_repeats h
  | readWord o => exact hostRead_repeats h
  | writeByte o v => exact hostWrite_repeats (fun ho => nomatch (target_eq_cmd ho).1) h
  | writeHalf o v => exact hostWrite_repeats (fun ho => nomatch (target_eq_cmd ho).1) h
  | writeWord o v =>
    refine hostWrite_repeats (fun ho => ?_) h
    obtain ⟨-, rfl⟩ := target_eq_cmd ho
    exact hcmd v rfl

/-- Settles O47: the first access leaves the second as the next input, and repeats at the state it leaves. -/
theorem repeatedAccessesAreIdempotent : Obligations.RepeatedAccessesAreIdempotent := by
  intro s t a rest hcmd hin h
  rw [step_of_input hin] at h
  obtain ⟨hinputs, hagain⟩ := hostAccess_repeats hcmd h
  exact (step_of_input hinputs).trans (hagain rest)

end Sys2Proof.Machine
end

section
/-! The fields of a command word (30_encoding.md R80, R81): a word is its four fields, format F0 puts a word together
from them, and FA holds ROR32's and EXTRACT's 5-bit operand below bits that R83 wants 0. -/

namespace Sys2Proof

/-- A word is its four fields. -/
theorem eq_iff_fields {x y : Word} :
    x = y ↔ opcField x = opcField y ∧ faField x = faField y ∧ fbField x = fbField y ∧ rsvField x = rsvField y := by
  constructor
  · rintro rfl
    exact ⟨rfl, rfl, rfl, rfl⟩
  · simp only [← BitVec.toNat_inj, opcField, faField, fbField, rsvField, BitVec.extractLsb'_toNat,
      Nat.shiftRight_eq_div_pow]
    omega

@[simp] theorem opcField_assembleF0 (opc fa : BitVec 8) (fb : BitVec 6) : opcField (assembleF0 opc fa fb) = opc := by
  ext i hi
  interval_cases i <;> simp [opcField, assembleF0]

@[simp] theorem faField_assembleF0 (opc fa : BitVec 8) (fb : BitVec 6) : faField (assembleF0 opc fa fb) = fa := by
  ext i hi
  interval_cases i <;> simp [faField, assembleF0]

@[simp] theorem fbField_assembleF0 (opc fa : BitVec 8) (fb : BitVec 6) : fbField (assembleF0 opc fa fb) = fb := by
  ext i hi
  interval_cases i <;> simp [fbField, assembleF0]

/-- Format F0 gives exactly the word whose fields are these and whose RSV is 0. -/
theorem assembleF0_eq_iff {opc fa : BitVec 8} {fb : BitVec 6} {w : Word} :
    assembleF0 opc fa fb = w ↔ opcField w = opc ∧ faField w = fa ∧ fbField w = fb ∧ rsvField w = 0#10 := by
  rw [eq_comm, eq_iff_fields, opcField_assembleF0, faField_assembleF0, fbField_assembleF0,
    Laws.ReservedBitsZero.rsvField_assembleF0]

/-- FA holds a 5-bit operand exactly when its low bits are the operand and bits 15:13 of the word are 0 (R81, R83). -/
theorem faField_eq_setWidth_iff {w : Word} {n : BitVec 5} :
    faField w = n.setWidth 8 ↔ fa5Field w = n ∧ w.extractLsb' 13 3 = 0#3 := by
  simp only [← BitVec.toNat_inj, faField, fa5Field, BitVec.extractLsb'_toNat, Nat.shiftRight_eq_div_pow,
    BitVec.toNat_setWidth, BitVec.toNat_ofNat]
  omega

/-- The mask of R84 that ROR32 and EXTRACT put on FA asks for bits 15:13 alone. -/
theorem faField_and_mask_iff {w : Word} : faField w &&& 0xE0#8 = 0#8 ↔ w.extractLsb' 13 3 = 0#3 := by
  have hbyte : ∀ fa : BitVec 8, fa &&& 0xE0#8 = 0#8 ↔ fa.extractLsb' 5 3 = 0#3 := by decide
  have hsub : (faField w).extractLsb' 5 3 = w.extractLsb' 13 3 := by
    ext i hi
    have hlt : 5 + i < 8 := by omega
    simp [faField, hlt, ← Nat.add_assoc]
  rw [hbyte, hsub]

/-- A masked comparison of R84, field by field. -/
theorem and_eq_iff_fields {w mask pattern : Word} :
    w &&& mask = pattern ↔
      opcField w &&& opcField mask = opcField pattern ∧ faField w &&& faField mask = faField pattern ∧
      fbField w &&& fbField mask = fbField pattern ∧ rsvField w &&& rsvField mask = rsvField pattern := by
  simp only [eq_iff_fields (y := pattern), opcField, faField, fbField, rsvField, BitVec.extractLsb'_and]

end Sys2Proof
end

section
/-! Decode and encode agree (30_encoding.md R84, R85): the rows of R84 exclude one another, a word that matches a row is
the word of the row's command, and every command's word matches its row. -/

namespace Sys2Proof

/-- The row of ROR32 (R84). -/
def ror32Row : Row where
  pattern := 0x00000001#32
  mask := 0xFFFFE0FF#32
  extra := fun _ => true
  build := fun w => .ror32 (fa5Field w)

/-- The row of EXTRACT (R84). -/
def extractRow : Row where
  pattern := 0x00000002#32
  mask := 0xFFC0E0FF#32
  extra := fun w => decide ((fbField w).toNat ≤ 32)
  build := fun w => .extract (fa5Field w) (fbField w)

/-- The row of ROUND (R84). -/
def roundRow : Row where
  pattern := 0x00000006#32
  mask := 0xFFFF00FF#32
  extra := fun _ => true
  build := fun w => .round (faField w)

theorem ror32Row_mem : ror32Row ∈ opcodeRows := List.mem_of_getElem? (i := 1) rfl

theorem extractRow_mem : extractRow ∈ opcodeRows := List.mem_of_getElem? (i := 2) rfl

theorem roundRow_mem : roundRow ∈ opcodeRows := List.mem_of_getElem? (i := 6) rfl

/-! ### What each row matches, in fields -/

theorem rowMatches_fixedRow {pattern w : Word} {i : Instr} :
    rowMatches (fixedRow pattern i) w = true ↔ w = pattern := by
  have hmask : w &&& 0xFFFFFFFF#32 = w := BitVec.and_allOnes
  simp [rowMatches, fixedRow, hmask]

theorem rowMatches_ror32Row {w : Word} :
    rowMatches ror32Row w = true ↔
      opcField w = 0x01#8 ∧ w.extractLsb' 13 3 = 0#3 ∧ fbField w = 0#6 ∧ rsvField w = 0#10 := by
  simp only [rowMatches, ror32Row, Bool.and_true, decide_eq_true_eq, and_eq_iff_fields]
  change opcField w &&& BitVec.allOnes 8 = 0x01#8 ∧ faField w &&& 0xE0#8 = 0#8 ∧
    fbField w &&& BitVec.allOnes 6 = 0#6 ∧ rsvField w &&& BitVec.allOnes 10 = 0#10 ↔ _
  simp only [BitVec.and_allOnes, faField_and_mask_iff]

theorem rowMatches_extractRow {w : Word} :
    rowMatches extractRow w = true ↔
      (opcField w = 0x02#8 ∧ w.extractLsb' 13 3 = 0#3 ∧ rsvField w = 0#10) ∧ (fbField w).toNat ≤ 32 := by
  simp only [rowMatches, extractRow, Bool.and_eq_true, decide_eq_true_eq, and_eq_iff_fields]
  change (opcField w &&& BitVec.allOnes 8 = 0x02#8 ∧ faField w &&& 0xE0#8 = 0#8 ∧
    fbField w &&& 0#6 = 0#6 ∧ rsvField w &&& BitVec.allOnes 10 = 0#10) ∧ _ ↔ _
  simp only [BitVec.and_allOnes, BitVec.and_zero, faField_and_mask_iff, true_and]

theorem rowMatches_roundRow {w : Word} :
    rowMatches roundRow w = true ↔ opcField w = 0x06#8 ∧ fbField w = 0#6 ∧ rsvField w = 0#10 := by
  simp only [rowMatches, roundRow, Bool.and_true, decide_eq_true_eq, and_eq_iff_fields]
  change opcField w &&& BitVec.allOnes 8 = 0x06#8 ∧ faField w &&& 0#8 = 0#8 ∧
    fbField w &&& BitVec.allOnes 6 = 0#6 ∧ rsvField w &&& BitVec.allOnes 10 = 0#10 ↔ _
  simp only [BitVec.and_allOnes, BitVec.and_zero, true_and]

/-! ### The rows exclude one another -/

/-- A word that matches a row has the row's opcode: every mask of R84 keeps the whole of OPC. -/
theorem opcField_of_rowMatches {r : Row} {w : Word} (hr : r ∈ opcodeRows) (h : rowMatches r w = true) :
    opcField w = opcField r.pattern := by
  have hmask : ∀ r ∈ opcodeRows, opcField r.mask = 0xFF#8 := by decide
  obtain ⟨hw, -⟩ : w &&& r.mask = r.pattern ∧ r.extra w = true := by simpa [rowMatches] using h
  obtain ⟨hopc, -⟩ := and_eq_iff_fields.mp hw
  rw [← hopc, hmask r hr]
  exact BitVec.and_allOnes.symm

/-- No two rows of R84 have the same opcode. -/
theorem opcodeRows_opcodes_nodup : (opcodeRows.map fun r => opcField r.pattern).Nodup := by decide

/-- The order of the rows does not matter: a word matches at most one of them. -/
theorem row_eq_of_rowMatches {r r' : Row} {w : Word} (hr : r ∈ opcodeRows) (hr' : r' ∈ opcodeRows)
    (h : rowMatches r w = true) (h' : rowMatches r' w = true) : r = r' :=
  List.inj_on_of_nodup_map opcodeRows_opcodes_nodup hr hr'
    ((opcField_of_rowMatches hr h).symm.trans (opcField_of_rowMatches hr' h'))

/-- Decoding by R84: a word's command is the one that a row it matches builds. -/
theorem decode_eq_ok_iff {w : Word} {i : Instr} :
    decode w = .ok i ↔ ∃ r ∈ opcodeRows, rowMatches r w = true ∧ r.build w = i := by
  cases hfind : opcodeRows.find? (fun r => rowMatches r w) with
  | none =>
    have hnone := List.find?_eq_none.mp hfind
    simp only [decode, hfind, reduceCtorEq, false_iff, not_exists, not_and]
    exact fun r hr h => absurd h (hnone r hr)
  | some r =>
    have hr := List.mem_of_find?_eq_some hfind
    have hmatch : rowMatches r w = true := List.find?_some (p := fun r => rowMatches r w) hfind
    simp only [decode, hfind, Except.ok.injEq]
    constructor
    · exact fun hbuild => ⟨r, hr, hmatch, hbuild⟩
    · rintro ⟨r', hr', hmatch', hbuild⟩
      rwa [row_eq_of_rowMatches hr hr' hmatch hmatch']

/-! ### A word that matches a row is the word of the row's command -/

/-- Every word of the row is the word of the command the row builds from it, and that command is well-formed. -/
def Row.Sound (r : Row) : Prop :=
  ∀ w, rowMatches r w = true → (r.build w).wellFormed = true ∧ encode (r.build w) = w

theorem fixedRow_sound (i : Instr) (hwf : i.wellFormed = true) : (fixedRow (encode i) i).Sound :=
  fun _ h => ⟨hwf, (rowMatches_fixedRow.mp h).symm⟩

theorem ror32Row_sound : ror32Row.Sound := by
  intro w h
  obtain ⟨hopc, hhigh, hfb, hrsv⟩ := rowMatches_ror32Row.mp h
  exact ⟨rfl, assembleF0_eq_iff.mpr ⟨hopc, faField_eq_setWidth_iff.mpr ⟨rfl, hhigh⟩, hfb, hrsv⟩⟩

theorem extractRow_sound : extractRow.Sound := by
  intro w h
  obtain ⟨⟨hopc, hhigh, hrsv⟩, hwidth⟩ := rowMatches_extractRow.mp h
  exact ⟨decide_eq_true hwidth, assembleF0_eq_iff.mpr ⟨hopc, faField_eq_setWidth_iff.mpr ⟨rfl, hhigh⟩, rfl, hrsv⟩⟩

theorem roundRow_sound : roundRow.Sound := by
  intro w h
  obtain ⟨hopc, hfb, hrsv⟩ := rowMatches_roundRow.mp h
  exact ⟨rfl, assembleF0_eq_iff.mpr ⟨hopc, rfl, hfb, hrsv⟩⟩

/-- All thirteen rows, in the table's order. -/
theorem opcodeRows_sound : ∀ r ∈ opcodeRows, r.Sound := by
  simp only [opcodeRows, List.cons_append, List.nil_append, List.forall_mem_cons]
  exact ⟨fixedRow_sound .nop rfl, ror32Row_sound, extractRow_sound, fixedRow_sound .mix rfl,
    fixedRow_sound .prepare rfl, fixedRow_sound .finalize rfl, roundRow_sound, fixedRow_sound .bstart rfl,
    fixedRow_sound .bfinish rfl, fixedRow_sound .encblk rfl, fixedRow_sound .cbcinit rfl, fixedRow_sound .cbcblk rfl,
    fixedRow_sound .cbcbuf rfl, nofun⟩

/-- Settles O3: the word matches a row, and every row is sound. -/
theorem decodedWordIsTheCommandsOwnWord : Obligations.DecodedWordIsTheCommandsOwnWord := by
  intro w i h
  obtain ⟨r, hr, hmatch, rfl⟩ := decode_eq_ok_iff.mp h
  exact opcodeRows_sound r hr w hmatch

/-! ### The word of a command matches its row -/

/-- Settles O2: a command without operands has one word; for the three others, the fields of the word meet the row's
conditions and hold the operands. -/
theorem decodeOfEncodeIsTheCommand : Obligations.DecodeOfEncodeIsTheCommand := by
  intro i hwf
  cases i with
  | ror32 n =>
    obtain ⟨hn, hhigh⟩ := faField_eq_setWidth_iff.mp (faField_assembleF0 0x01#8 (n.setWidth 8) 0#6)
    exact decode_eq_ok_iff.mpr ⟨ror32Row, ror32Row_mem,
      rowMatches_ror32Row.mpr ⟨opcField_assembleF0 .., hhigh, fbField_assembleF0 .., Laws.ReservedBitsZero.ror32 n⟩,
      congrArg Instr.ror32 hn⟩
  | extract lsb width =>
    have hwidth := fbField_assembleF0 0x02#8 (lsb.setWidth 8) width
    obtain ⟨hlsb, hhigh⟩ := faField_eq_setWidth_iff.mp (faField_assembleF0 0x02#8 (lsb.setWidth 8) width)
    exact decode_eq_ok_iff.mpr ⟨extractRow, extractRow_mem,
      rowMatches_extractRow.mpr ⟨⟨opcField_assembleF0 .., hhigh, Laws.ReservedBitsZero.extract lsb width⟩, by
        rw [encode, hwidth]
        exact of_decide_eq_true hwf⟩,
      congrArg₂ Instr.extract hlsb hwidth⟩
  | round k =>
    exact decode_eq_ok_iff.mpr ⟨roundRow, roundRow_mem,
      rowMatches_roundRow.mpr ⟨opcField_assembleF0 .., fbField_assembleF0 .., Laws.ReservedBitsZero.round k⟩,
      congrArg Instr.round (faField_assembleF0 ..)⟩
  | _ => rfl

/-- The legal words are those of the well-formed commands (R85). -/
theorem decode_eq_ok_iff_encode {w : Word} {i : Instr} :
    decode w = .ok i ↔ i.wellFormed = true ∧ encode i = w := by
  constructor
  · exact decodedWordIsTheCommandsOwnWord w i
  · rintro ⟨hwf, rfl⟩
    exact decodeOfEncodeIsTheCommand i hwf

/-- A word is illegal exactly when it is the word of no well-formed command (R85). -/
theorem decode_error_iff {w : Word} :
    (∃ e, decode w = .error e) ↔ ¬ ∃ i : Instr, i.wellFormed = true ∧ encode i = w := by
  simp only [← decode_eq_ok_iff_encode]
  cases decode w <;> simp

end Sys2Proof
end

section
/-! The illegal words (30_encoding.md R85): which words they are, and what writing one to CMD does. -/

namespace Sys2Proof

open Sys2Proof.Machine

/-- The fields of a word meet the opcode map: none of the cases of R85 holds. -/
structure FieldsLegal (w : Word) : Prop where
  opc_assigned : (opcField w).toNat ≠ 0x07 ∧ (opcField w).toNat < 0x0E
  rsv_zero : rsvField w = 0#10
  fa_zero : ¬ ((opcField w).toNat = 0x01 ∨ (opcField w).toNat = 0x02 ∨ (opcField w).toNat = 0x06) → faField w = 0#8
  fa_high_zero : (opcField w).toNat = 0x01 ∨ (opcField w).toNat = 0x02 → w.extractLsb' 13 3 = 0#3
  fb_zero : (opcField w).toNat ≠ 0x02 → fbField w = 0#6
  width_le : (opcField w).toNat = 0x02 → (fbField w).toNat ≤ 32

/-- The word of every well-formed command meets the opcode map (R81, R83). -/
theorem fieldsLegal_encode {i : Instr} (hwf : i.wellFormed = true) : FieldsLegal (encode i) := by
  cases i with
  | ror32 n =>
    obtain ⟨hopc, hfa, hfb, hrsv⟩ := assembleF0_eq_iff.mp (rfl : _ = encode (.ror32 n))
    obtain ⟨-, hhigh⟩ := faField_eq_setWidth_iff.mp hfa
    constructor <;> simp [hopc, hfb, hrsv, hhigh]
  | extract lsb width =>
    obtain ⟨hopc, hfa, hfb, hrsv⟩ := assembleF0_eq_iff.mp (rfl : _ = encode (.extract lsb width))
    obtain ⟨-, hhigh⟩ := faField_eq_setWidth_iff.mp hfa
    have hwidth : width.toNat ≤ 32 := of_decide_eq_true hwf
    constructor <;> simp [hopc, hfb, hrsv, hhigh, hwidth]
  | round k =>
    obtain ⟨hopc, -, hfb, hrsv⟩ := assembleF0_eq_iff.mp (rfl : _ = encode (.round k))
    constructor <;> simp [hopc, hfb, hrsv]
  | _ => constructor <;> decide

/-- Every opcode of R83 that takes no operand is that of a command whose other fields are 0. -/
theorem exists_encode_of_no_operand {opc : Nat} (hseven : opc ≠ 0x07) (hlt : opc < 0x0E)
    (hoperand : ¬ (opc = 0x01 ∨ opc = 0x02 ∨ opc = 0x06)) :
    ∃ i : Instr, i.wellFormed = true ∧ encode i = assembleF0 (BitVec.ofNat 8 opc) 0#8 0#6 := by
  interval_cases opc
  exacts [⟨.nop, rfl, rfl⟩, absurd (.inl rfl) hoperand, absurd (.inr (.inl rfl)) hoperand, ⟨.mix, rfl, rfl⟩,
    ⟨.prepare, rfl, rfl⟩, ⟨.finalize, rfl, rfl⟩, absurd (.inr (.inr rfl)) hoperand, absurd rfl hseven,
    ⟨.bstart, rfl, rfl⟩, ⟨.bfinish, rfl, rfl⟩, ⟨.encblk, rfl, rfl⟩, ⟨.cbcinit, rfl, rfl⟩, ⟨.cbcblk, rfl, rfl⟩,
    ⟨.cbcbuf, rfl, rfl⟩]

/-- A word that meets the opcode map is the word of a well-formed command, found by its opcode (R83). -/
theorem exists_encode_of_fieldsLegal {w : Word} (h : FieldsLegal w) :
    ∃ i : Instr, i.wellFormed = true ∧ encode i = w := by
  obtain ⟨⟨hseven, hlt⟩, hrsv, hfa, hhigh, hfb, hwidth⟩ := h
  by_cases hror : (opcField w).toNat = 0x01
  · exact ⟨.ror32 (fa5Field w), rfl, assembleF0_eq_iff.mpr ⟨BitVec.eq_of_toNat_eq hror,
      faField_eq_setWidth_iff.mpr ⟨rfl, hhigh (.inl hror)⟩, hfb (by omega), hrsv⟩⟩
  by_cases hext : (opcField w).toNat = 0x02
  · exact ⟨.extract (fa5Field w) (fbField w), decide_eq_true (hwidth hext), assembleF0_eq_iff.mpr
      ⟨BitVec.eq_of_toNat_eq hext, faField_eq_setWidth_iff.mpr ⟨rfl, hhigh (.inr hext)⟩, rfl, hrsv⟩⟩
  by_cases hround : (opcField w).toNat = 0x06
  · exact ⟨.round (faField w), rfl, assembleF0_eq_iff.mpr ⟨BitVec.eq_of_toNat_eq hround, rfl, hfb hext, hrsv⟩⟩
  have hoperand : ¬ ((opcField w).toNat = 0x01 ∨ (opcField w).toNat = 0x02 ∨ (opcField w).toNat = 0x06) := by omega
  obtain ⟨i, hwf, henc⟩ := exists_encode_of_no_operand hseven hlt hoperand
  refine ⟨i, hwf, henc.trans (assembleF0_eq_iff.mpr ⟨?_, hfa hoperand, hfb hext, hrsv⟩)⟩
  simp

/-- The words of commands are exactly those whose fields meet the opcode map (R83, R85). -/
theorem exists_encode_iff_fieldsLegal {w : Word} :
    (∃ i : Instr, i.wellFormed = true ∧ encode i = w) ↔ FieldsLegal w := by
  constructor
  · rintro ⟨i, hwf, rfl⟩
    exact fieldsLegal_encode hwf
  · exact exists_encode_of_fieldsLegal

/-- Settles O4: a word is illegal when no command has it, and the cases of R85 are those in which its fields do not meet
the opcode map. -/
theorem wordIsIllegalExactlyInTheListedCases : Obligations.WordIsIllegalExactlyInTheListedCases := by
  intro w opc fa fb
  rw [decode_error_iff, exists_encode_iff_fieldsLegal]
  constructor
  · intro hillegal
    by_contra hnone
    simp only [not_or, not_and, not_not, Nat.not_le, Nat.not_lt] at hnone
    obtain ⟨hopc, hrsv, hfa, hhigh, hfb, hwidth⟩ := hnone
    exact hillegal ⟨hopc, hrsv, by tauto, hhigh, hfb, hwidth⟩
  · rintro hcase ⟨hopc, hrsv, hfa, hhigh, hfb, hwidth⟩
    obtain (hseven | hge) | hres | ⟨hno, hne⟩ | ⟨hop, hne⟩ | ⟨hop, hne⟩ | ⟨hop, hwide⟩ := hcase
    · exact hopc.1 hseven
    · exact absurd hge (Nat.not_le.mpr hopc.2)
    · exact hres hrsv
    · exact hne (hfa hno)
    · exact hne (hhigh hop)
    · exact hne (hfb hop)
    · exact absurd (hwidth hop) (Nat.not_le.mpr hwide)

/-- Settles O8: by O3 the word does not decode, and a CMD write of such a word only raises ILLEGAL_COMMAND. -/
theorem illegalWordRaisesIllegalCommand : Obligations.IllegalWordRaisesIllegalCommand := by
  intro s w rest herr hin hnone
  obtain ⟨e, he⟩ := decode_error_iff.mpr fun ⟨i, hwf, henc⟩ => hnone i hwf henc
  rw [step_writeWord_reg hin (target_cmdOffset wgcore), writeReg, writeCmd_of_error he]
  exact command_of_ok (s := { s with inputs := rest, response := .done }) herr _

/-- Settles O1: each word of R90, the illegal ones with the case of R85 that they are. -/
theorem sampleWordsDecodeAsTheSpecLists : Obligations.SampleWordsDecodeAsTheSpecLists := by
  refine ⟨⟨rfl, rfl, rfl, rfl, rfl, rfl, rfl⟩, ?_⟩
  simp only [List.forall_mem_cons]
  exact ⟨⟨.reservedOpcode, rfl⟩, ⟨.extractWidth, rfl⟩, ⟨.mustBeZeroField, rfl⟩, ⟨.reservedBits, rfl⟩,
    ⟨.mustBeZeroField, rfl⟩, nofun⟩

end Sys2Proof
end

section
/-! Runs of host statements (30_encoding.md R88, R89): what a register write and a KEYMEM write do to the run that goes
on after them, and `setkey` as a sequence of these. -/

namespace Sys2Proof.Machine

/-- Bytes written in two parts, the second from where the first ends. -/
theorem Memory.writeBytes_append (bs cs : List Byte) (m : Memory) (a : Nat) :
    m.writeBytes a (bs ++ cs) = (m.writeBytes a bs).writeBytes (a + bs.length) cs := by
  induction bs generalizing m a with
  | nil => rfl
  | cons b bs ih =>
    have hend : a + 1 + bs.length = a + (b :: bs).length := by simp only [List.length_cons]; omega
    rw [List.cons_append, Memory.writeBytes_cons, Memory.writeBytes_cons, ih, hend]

/-- The bytes of the word that stands at `o` in a byte string are its four bytes from `o` on. -/
theorem packLe32_le32_at {b : List Byte} {o : Nat} (h : o + 4 ≤ b.length) :
    packLe32 (le32 b o) = (b.drop o).take 4 := by
  have hle32 : le32 b o = le32 ((b.drop o).take 4) 0 := by simp [le32, byteAt, List.getD_eq_getElem?_getD]
  rw [hle32, packLe32_le32 (by simp; omega)]

end Sys2Proof.Machine

namespace Sys2Proof.Safety

open Sys2Proof.Machine Sys2Proof.HostSide

theorem run_nil (s : State) : run [] s = .next (s.setInputs []) := rfl

/-- A first step that completes: the run goes on from the state it leaves. -/
theorem core_run_succ {M : Host.Core} {k : Nat} {s t : M.State} (h : M.step s = .next t) :
    M.run (k + 1) s = M.run k t := by
  simp only [Host.Core.run, h]

/-- A run whose first input completes goes on from the state that input leaves, with the rest pending. -/
theorem run_cons_of_next {i : Input} {is : List Input} {s t : State}
    (h : applyInput i (s.setInputs is) = .next (t.setInputs is)) : run (i :: is) s = run is t :=
  core_run_succ (M := core) ((step_of_input (s := s.setInputs (i :: is)) rfl).trans h)

/-- `wr REG, v` for a register that the host may write (R88). -/
theorem run_wr {r : Reg} (hr : hostWritable r = true) (v : Word) (is : List Input) (s : State) :
    run (wr r v :: is) s = run is ((s.setReg r v).respond .done) := by
  refine run_cons_of_next ?_
  calc applyInput (wr r v) (s.setInputs is)
      = writeReg (.data r) v ((s.setInputs is).respond .done) := by
        simp [applyInput, wr, wrAt, hostAccess, hostWrite, target_regOffset]
    _ = .next (((s.setInputs is).respond .done).setReg r v) := by simp [writeReg, hr]
    _ = .next (((s.setReg r v).respond .done).setInputs is) := by cases r <;> rfl

/-- `wrk o, v`, wholly inside KEYMEM (R88; 20_memory.md R54). -/
theorem run_wrk {o : Nat} (halign : o % 4 = 0) (hfits : o + 4 ≤ 128) (v : Word) (is : List Input) (s : State) :
    run (wrk o v :: is) s =
      run is { s with keymem := s.keymem.writeBytes o (packLe32 v), response := .done } := by
  have ho : (BitVec.ofNat 12 (0x100 + o)).toNat = 0x100 + o := Nat.mod_eq_of_lt (by omega)
  have htarget : target wgcore 4 (BitVec.ofNat 12 (0x100 + o)) = some (.key o) := by
    rw [target_of_key (.inr ⟨rfl, by omega⟩) (by omega) (by omega), ho, Nat.add_sub_cancel_left]
  exact run_cons_of_next (hostWrite_key v (s.setInputs is) htarget)

/-- The first `n` word writes of `setkey` leave the first `4 * n` bytes of the key in KEYMEM (R89). -/
theorem run_setkey_words {key : List Byte} {n : Nat} (hlen : 4 * n ≤ key.length) (hmax : key.length ≤ 128)
    (is : List Input) (s : State) :
    ∃ x, run ((List.range n).map (fun j => wrk (4 * j) (le32 key (4 * j))) ++ is) s =
      run is { s with keymem := s.keymem.writeBytes 0 (key.take (4 * n)), response := x } := by
  induction n generalizing is with
  | zero => exact ⟨s.response, rfl⟩
  | succ n ih =>
    obtain ⟨x, hx⟩ := ih (by omega) (wrk (4 * n) (le32 key (4 * n)) :: is)
    have htake : key.take (4 * (n + 1)) = key.take (4 * n) ++ packLe32 (le32 key (4 * n)) := by
      rw [packLe32_le32_at (by omega), ← List.take_add]
      rfl
    have hstart : 0 + (key.take (4 * n)).length = 4 * n := by
      rw [List.length_take]
      omega
    refine ⟨.done, ?_⟩
    calc run ((List.range (n + 1)).map (fun j => wrk (4 * j) (le32 key (4 * j))) ++ is) s
        = run ((List.range n).map (fun j => wrk (4 * j) (le32 key (4 * j))) ++
            wrk (4 * n) (le32 key (4 * n)) :: is) s := by
          rw [List.range_succ, List.map_append, List.append_assoc]
          rfl
      _ = run (wrk (4 * n) (le32 key (4 * n)) :: is)
            { s with keymem := s.keymem.writeBytes 0 (key.take (4 * n)), response := x } := hx
      _ = run is { s with keymem := s.keymem.writeBytes 0 (key.take (4 * (n + 1))), response := .done } := by
          rw [htake, Memory.writeBytes_append, hstart]
          exact run_wrk (by omega) (by omega) _ is _

/-- Settles O58: the word writes load the key, and the write of KEYLEN ends the run. -/
theorem setkeyLoadsTheKey : Obligations.SetkeyLoadsTheKey := by
  intro s key halign hmax
  have hwhole : key.take (4 * (key.length / 4)) = key := List.take_of_length_le (by omega)
  obtain ⟨x, hx⟩ :=
    run_setkey_words (n := key.length / 4) (by omega) hmax [wr .keylen (BitVec.ofNat 32 key.length)] s
  refine ⟨s.keymem.writeBytes 0 key, ?_, fun a => ?_⟩
  · rw [setkey, hx, hwhole, run_wr rfl, run_nil]
    rfl
  · simp [Memory.read_writeBytes]

end Sys2Proof.Safety
end

section
/-! The BitOps component (40_bitops.md): which bit `ror32` and which field `extractBits` puts where (R101, R102), the
laws of the two (R106), and the three commands (R103 to R105). -/

namespace Sys2Proof.Machine

/-- Bit `i` of a word rotated right by `n` is bit `(i + n) mod 32` of the word (R101). -/
theorem getLsbD_ror32 (v : Word) {n i : Nat} (hn : n < 32) (hi : i < 32) :
    (ror32 v n).getLsbD i = v.getLsbD ((i + n) % 32) := by
  rw [ror32_eq_rotateRight v n hn, BitVec.getLsbD_rotateRight, Nat.mod_eq_of_lt hn]
  by_cases hlow : i < 32 - n
  · have hsame : (i + n) % 32 = n + i := by omega
    simp [hlow, hsame]
  · have hwrap : (i + n) % 32 = i - (32 - n) := by omega
    simp [hlow, hi, hwrap]

/-- Rotation moves bits and so distributes over XOR (R106). -/
theorem ror32_xor (v u : Word) {n : Nat} (hn : n < 32) : ror32 (v ^^^ u) n = ror32 v n ^^^ ror32 u n := by
  refine BitVec.eq_of_getLsbD_eq fun i hi => ?_
  simp only [getLsbD_ror32 _ hn hi, BitVec.getLsbD_xor]

/-- Rotating by `n` is undone by rotating on by the rest of 32 (R106). -/
theorem ror32_bijective {n : Nat} (hn : n < 32) : Function.Bijective fun v : Word => ror32 v n := by
  have hrest : (32 - n) % 32 < 32 := Nat.mod_lt _ (by decide)
  have hfull : (n + (32 - n) % 32) % 32 = 0 := by omega
  refine Function.bijective_iff_has_inverse.mpr ⟨fun v => ror32 v ((32 - n) % 32), fun v => ?_, fun v => ?_⟩
  · simp [ror32_ror32 v hn hrest, hfull]
  · simp [ror32_ror32 v hrest hn, Nat.add_comm _ n, hfull]

/-- Up to width 32 the mask loses nothing when it is narrowed to a word (R102). -/
theorem toNat_maskOf {width : Nat} (h : width ≤ 32) : (maskOf width).toNat = 2 ^ width - 1 := by
  have hpow : 2 ^ width ≤ 2 ^ 32 := Nat.pow_le_pow_right (by decide) h
  rw [maskOf, BitVec.toNat_ofNat, Nat.mod_eq_of_lt (by omega)]

/-- The field as a number: shift by division, mask by remainder (R102). -/
theorem toNat_extractBits (v : Word) (lsb : Nat) {width : Nat} (h : width ≤ 32) :
    (extractBits v lsb width).toNat = v.toNat / 2 ^ lsb % 2 ^ width := by
  rw [extractBits, BitVec.toNat_and, BitVec.toNat_ushiftRight, toNat_maskOf h, Nat.and_two_pow_sub_one_eq_mod,
    Nat.shiftRight_eq_div_pow]

/-- A field of at most 32 bits fits in its width (R106). -/
theorem toNat_extractBits_lt (v : Word) (lsb : Nat) {width : Nat} (h : width ≤ 32) :
    (extractBits v lsb width).toNat < 2 ^ width := by
  rw [toNat_extractBits v lsb h]
  exact Nat.mod_lt _ (Nat.two_pow_pos width)

/-- A field that reaches the top of the word needs no mask (R102). -/
theorem extractBits_eq_ushiftRight (v : Word) {lsb width : Nat} (h : width ≤ 32) (htop : 32 ≤ lsb + width) :
    extractBits v lsb width = v >>> lsb := by
  have hfits : v.toNat / 2 ^ lsb < 2 ^ width := by
    refine Nat.div_lt_of_lt_mul ?_
    calc v.toNat < 2 ^ 32 := v.isLt
      _ ≤ 2 ^ (lsb + width) := Nat.pow_le_pow_right (by decide) htop
      _ = 2 ^ lsb * 2 ^ width := Nat.pow_add 2 lsb width
  refine BitVec.eq_of_toNat_eq ?_
  rw [toNat_extractBits v lsb h, Nat.mod_eq_of_lt hfits, BitVec.toNat_ushiftRight, Nat.shiftRight_eq_div_pow]

/-- Settles O48: the laws one by one; the mask of width 6 is 0x3F at every offset. -/
theorem ror32AndExtractLaws : Obligations.Ror32AndExtractLaws :=
  ⟨fun v _ _ ha hb => ror32_ror32 v ha hb,
    fun _ hn => ror32_bijective hn,
    fun v u _ hn => ror32_xor v u hn,
    fun v lsb _ _ hw => toNat_extractBits_lt v lsb (Nat.le_of_lt hw),
    fun v => extractBits_eq_ushiftRight v (by decide) (by decide),
    fun _ _ _ => rfl⟩

/-- Settles O17: the error state and the body leave the same state. -/
theorem nopChangesNothing : Obligations.NopChangesNothing := by
  intro s
  obtain ⟨-, hsame⟩ | ⟨-, hbody⟩ := command_cases s (.next s)
  · exact hsame
  · exact hbody

/-- Settles O18: the body of ROR32 runs, and every amount of 5 bits is below 32. -/
theorem ror32RotatesOpaIntoRes0 : Obligations.Ror32RotatesOpaIntoRes0 :=
  fun n s herr => ⟨ror32 s.opa n.toNat, command_of_ok herr _, fun _ hi => getLsbD_ror32 s.opa n.isLt hi⟩

/-- Settles O19: the body of EXTRACT runs, and RES0 is the field as a number. -/
theorem extractReadsTheFieldOfOpa : Obligations.ExtractReadsTheFieldOfOpa :=
  fun lsb width s herr hwidth =>
    ⟨extractBits s.opa lsb.toNat width.toNat, command_of_ok herr _, toNat_extractBits s.opa lsb.toNat hwidth⟩

end Sys2Proof.Machine
end

section
/-! The substitution component (41_substitution.md): the fields that MIX looks up, as numbers (R120, R121), and the bits
that each table of the default SBOX can set (R126). -/

namespace Sys2Proof.Machine

/-- The field as a number: shift by division, mask by remainder (R120). -/
theorem mixField_eq_ofNat_div_mod (w : Word) (o : Nat) : mixField w o = BitVec.ofNat 6 (w.toNat / 2 ^ o % 64) := by
  refine BitVec.eq_of_toNat_eq ?_
  rw [mixField, BitVec.extractLsb'_toNat, BitVec.toNat_ofNat, Nat.mod_mod, Nat.shiftRight_eq_div_pow]

/-- The field at 26 is the top of the word, so it needs no mask (R120). -/
theorem mixField_top (w : Word) : mixField w 26 = BitVec.ofNat 6 (w.toNat / 2 ^ 26) := by
  have hfits : w.toNat / 2 ^ 26 < 64 := Nat.div_lt_of_lt_mul w.isLt
  rw [mixField_eq_ofNat_div_mod, Nat.mod_eq_of_lt hfits]

/-- Settles O20: the body of MIX runs, and the fields it looks up are the numbers of R120. -/
theorem mixXorsEightLookupsIntoRes0 : Obligations.MixXorsEightLookupsIntoRes0 := by
  intro s herr f v
  have hmix : mix wgcore s.opa s.opb = v := by
    simp only [v, f, mix, ← mixField_top, ← mixField_eq_ofNat_div_mod]
  calc exec .mix s = .next (s.setRes0 (mix wgcore s.opa s.opb)) := command_of_ok herr _
    _ = .next { s with res0 := v } := by rw [hmix]; rfl

/-- The bits that the entries of default table `t` can set: the mask that R126 lists for it. -/
def sboxMask (t : Fin 8) : Word :=
  [0x02080802#32, 0x40108010#32, 0x04040101#32, 0x10401008#32, 0x08010420#32, 0x80202040#32, 0x01004204#32,
    0x20820080#32].getD t.val 0#32

/-- The 512 default entries, each checked against the mask of its table (R123, R126). -/
theorem defaultSbox_and_not_sboxMask : ∀ (t : Fin 8) (i : BitVec 6), defaultSbox t i &&& ~~~ sboxMask t = 0#32 := by
  decide +kernel

theorem sboxMask_disjoint : ∀ t u : Fin 8, t ≠ u → sboxMask t &&& sboxMask u = 0#32 := by decide

theorem sboxMask_union : (List.finRange 8).foldl (fun x t => x ||| sboxMask t) 0#32 = 0xFFFFFFFF#32 := by decide

/-- Settles O49: the entries keep to the masks of R126, and these share no bit and leave none out. -/
theorem defaultTablesHaveDisjointMasks : Obligations.DefaultTablesHaveDisjointMasks :=
  ⟨defaultSbox_and_not_sboxMask, sboxMask_disjoint, sboxMask_union⟩

end Sys2Proof.Machine
end

section
/-! The default networks as bit maps (42_permutation.md R142, R144): what PERM_OP does to each bit, and the networks run
on names of source bits instead of on bits, so that the wiring they leave can be compared with the maps row by row. -/

namespace Sys2Proof.Machine

/-- PERM_OP puts the bit of `y` selected by `m` at position `i - n` into bit `i` of its first result (R141). -/
theorem getLsbD_permOp_fst (x y : Word) (n : Nat) (m : Word) {i : Nat} (hi : i < 32) :
    (permOp x y n m).1.getLsbD i = if n ≤ i ∧ m.getLsbD (i - n) then y.getLsbD (i - n) else x.getLsbD i := by
  by_cases hn : n ≤ i
  · have hback : n + (i - n) = i := by omega
    simp only [permOp, BitVec.getLsbD_xor, BitVec.getLsbD_shiftLeft, BitVec.getLsbD_and, BitVec.getLsbD_ushiftRight,
      hi, hn, hback, Nat.not_lt.mpr hn]
    cases m.getLsbD (i - n) <;> simp
  · simp [permOp, hn, Nat.lt_of_not_le hn]

/-- PERM_OP puts the bit of `x` selected by `m << n` at position `i + n` into bit `i` of its second result (R141). -/
theorem getLsbD_permOp_snd (x y : Word) (n : Nat) (m : Word) (i : Nat) :
    (permOp x y n m).2.getLsbD i = if m.getLsbD i then x.getLsbD (i + n) else y.getLsbD i := by
  cases hbit : m.getLsbD i <;> simp [permOp, hbit, Nat.add_comm n i, Bool.xor_left_comm]

/-- No bit of `m` leaves the word in `m << n`. -/
theorem add_lt_of_getLsbD_mask {m : Word} {n i : Nat} (hm : m <<< n >>> n = m) (hbit : m.getLsbD i = true) :
    i + n < 32 := by
  rw [← hm] at hbit
  simp only [BitVec.getLsbD_ushiftRight, BitVec.getLsbD_shiftLeft, Bool.and_eq_true, decide_eq_true_eq] at hbit
  omega

/-- Two words as wires: for each bit position, the source bit that stands there. -/
structure Wiring where
  fst : Nat → SourceBit
  snd : Nat → SourceBit

/-- The pair of words carries, on every wire, the bit of `x0` or `x1` that the wire names. -/
def Wiring.Carries (f : Wiring) (x0 x1 : Word) (p : Word × Word) : Prop :=
  ∀ i, i < 32 → p.1.getLsbD i = sourceBit x0 x1 (f.fst i) ∧ p.2.getLsbD i = sourceBit x0 x1 (f.snd i)

namespace Wiring

/-- The two arguments of a network, each on its own wires. -/
def arguments : Wiring where
  fst := in0
  snd := in1

def swap (f : Wiring) : Wiring where
  fst := f.snd
  snd := f.fst

/-- PERM_OP on wires (R141). -/
def permOp (f : Wiring) (n : Nat) (m : Word) : Wiring where
  fst i := if n ≤ i ∧ m.getLsbD (i - n) then f.snd (i - n) else f.fst i
  snd i := if m.getLsbD i then f.fst (i + n) else f.snd i

/-- The rotation of both words, on wires (40_bitops.md R101). -/
def ror (f : Wiring) (n : Nat) : Wiring where
  fst i := f.fst ((i + n) % 32)
  snd i := f.snd ((i + n) % 32)

theorem arguments_carries (x0 x1 : Word) : arguments.Carries x0 x1 (x0, x1) := fun _ _ => ⟨rfl, rfl⟩

variable {f : Wiring} {x0 x1 x y : Word}

theorem Carries.swap (h : f.Carries x0 x1 (x, y)) : f.swap.Carries x0 x1 (y, x) := fun i hi => (h i hi).symm

theorem Carries.permOp (h : f.Carries x0 x1 (x, y)) {n : Nat} {m : Word} (hm : m <<< n >>> n = m) :
    (f.permOp n m).Carries x0 x1 (Machine.permOp x y n m) := by
  refine fun i hi => ⟨?_, ?_⟩
  · simp only [getLsbD_permOp_fst x y n m hi, Wiring.permOp]
    split
    · exact (h (i - n) (by omega)).2
    · exact (h i hi).1
  · simp only [getLsbD_permOp_snd, Wiring.permOp]
    split
    next hbit => exact (h (i + n) (add_lt_of_getLsbD_mask hm hbit)).1
    · exact (h i hi).2

theorem Carries.ror (h : f.Carries x0 x1 (x, y)) {n : Nat} (hn : n < 32) :
    (f.ror n).Carries x0 x1 (ror32 x n, ror32 y n) := by
  intro i hi
  rw [getLsbD_ror32 x hn hi, getLsbD_ror32 y hn hi]
  exact h _ (Nat.mod_lt _ (by decide))

/-- PREPARE_NET on wires (R141). -/
def prepare : Wiring :=
  arguments
    |>.swap.permOp 4 0x0F0F0F0F#32
    |>.swap.permOp 16 0x0000FFFF#32
    |>.swap.permOp 2 0x33333333#32
    |>.swap.permOp 8 0x00FF00FF#32
    |>.swap.permOp 1 0x55555555#32
    |>.swap.ror 29

/-- FINALIZE_NET on wires (R143). -/
def finalize : Wiring :=
  arguments.ror 3
    |>.swap.permOp 1 0x55555555#32
    |>.swap.permOp 8 0x00FF00FF#32
    |>.swap.permOp 2 0x33333333#32
    |>.swap.permOp 16 0x0000FFFF#32
    |>.swap.permOp 4 0x0F0F0F0F#32
    |>.swap

theorem prepare_carries (x0 x1 : Word) : prepare.Carries x0 x1 (defaultPrepare x0 x1) :=
  arguments_carries x0 x1
    |>.swap.permOp rfl
    |>.swap.permOp rfl
    |>.swap.permOp rfl
    |>.swap.permOp rfl
    |>.swap.permOp rfl
    |>.swap.ror (by decide)

theorem finalize_carries (x0 x1 : Word) : finalize.Carries x0 x1 (defaultFinalize x0 x1) :=
  (arguments_carries x0 x1).ror (by decide)
    |>.swap.permOp rfl
    |>.swap.permOp rfl
    |>.swap.permOp rfl
    |>.swap.permOp rfl
    |>.swap.permOp rfl
    |>.swap

/-- The wiring is the two maps, which list their bits from 31 down to 0 as the spec does. -/
def Lists (f : Wiring) (map0 map1 : List SourceBit) : Prop :=
  ∀ i, i < 32 → map0[31 - i]? = some (f.fst i) ∧ map1[31 - i]? = some (f.snd i)

/-- The wires that PREPARE_NET leaves are the rows of R142. -/
theorem prepare_lists : prepare.Lists prepareMap0 prepareMap1 := by unfold Lists; decide

/-- The wires that FINALIZE_NET leaves are the rows of R144. -/
theorem finalize_lists : finalize.Lists finalizeMap0 finalizeMap1 := by unfold Lists; decide

theorem Carries.getLsbD_eq_mapBit {map0 map1 : List SourceBit} {p : Word × Word} (h : f.Carries x0 x1 p)
    (hmaps : f.Lists map0 map1) {i : Nat} (hi : i < 32) :
    p.1.getLsbD i = mapBit map0 x0 x1 i ∧ p.2.getLsbD i = mapBit map1 x0 x1 i := by
  obtain ⟨hrow0, hrow1⟩ := hmaps i hi
  simpa only [mapBit, hrow0, hrow1] using h i hi

end Wiring

/-- R141 and R142 define the same PREPARE_NET. -/
theorem getLsbD_defaultPrepare (x0 x1 : Word) {i : Nat} (hi : i < 32) :
    (defaultPrepare x0 x1).1.getLsbD i = mapBit prepareMap0 x0 x1 i ∧
      (defaultPrepare x0 x1).2.getLsbD i = mapBit prepareMap1 x0 x1 i :=
  (Wiring.prepare_carries x0 x1).getLsbD_eq_mapBit Wiring.prepare_lists hi

/-- R143 and R144 define the same FINALIZE_NET. -/
theorem getLsbD_defaultFinalize (x0 x1 : Word) {i : Nat} (hi : i < 32) :
    (defaultFinalize x0 x1).1.getLsbD i = mapBit finalizeMap0 x0 x1 i ∧
      (defaultFinalize x0 x1).2.getLsbD i = mapBit finalizeMap1 x0 x1 i :=
  (Wiring.finalize_carries x0 x1).getLsbD_eq_mapBit Wiring.finalize_lists hi

/-- Settles O21: the body of PREPARE runs, and PREPARE_NET follows its bit map. -/
theorem prepareFollowsItsBitMap : Obligations.PrepareFollowsItsBitMap :=
  fun s herr =>
    ⟨(defaultPrepare s.opa s.opb).1, (defaultPrepare s.opa s.opb).2, command_of_ok herr _,
      fun _ hi => getLsbD_defaultPrepare s.opa s.opb hi⟩

/-- Settles O22: the body of FINALIZE runs, and FINALIZE_NET follows its bit map. -/
theorem finalizeFollowsItsBitMap : Obligations.FinalizeFollowsItsBitMap :=
  fun s herr =>
    ⟨(defaultFinalize s.opa s.opb).1, (defaultFinalize s.opa s.opb).2, command_of_ok herr _,
      fun _ hi => getLsbD_defaultFinalize s.opa s.opb hi⟩

/-- Settles O50: each network runs the other's micro-steps in reverse order, so each undoes the other. -/
theorem defaultNetworksAreInverse : Obligations.DefaultNetworksAreInverse :=
  fun a b => ⟨defaultFinalize_defaultPrepare a b, defaultPrepare_defaultFinalize a b⟩

end Sys2Proof.Machine
end

section
/-! The Feistel commands (43_feistel.md R163 to R166) with ERR = 0, and KEYOK = 1 where they use the key: each says once
what its command answers, the chunk and the key being what KEYMEM reads. -/

namespace Sys2Proof.Machine

/-- BSTART needs no key (R164). -/
theorem exec_bstart_of_ok {s : State} (herr : s.err = false) :
    exec .bstart s = .next (s.setRound (wgcore.prepareNet s.din0 s.din1)) := command_of_ok herr _

/-- BFINISH needs no key, and outputs the block that the round state finishes to (R162, R165). -/
theorem exec_bfinish_of_ok {s : State} (herr : s.err = false) :
    exec .bfinish s = .next (s.setDout (finishBlock wgcore (s.sl, s.sr))) := command_of_ok herr _

/-- ROUND `k` reads chunk `k` of the key and no other (R163). -/
theorem exec_round_of_ok {s : State} {k : BitVec 8} (herr : s.err = false) (hk : keyOk wgcore s.keylen = true)
    (hround : k.toNat < s.keylen.toNat / 16) :
    exec (.round k) s = needBytes (readChunk s k.toNat) fun key =>
      .next (s.setRound (roundStep wgcore key (s.sl, s.sr))) :=
  (keyCommand_of_ok herr hk _).trans (if_pos hround)

/-- The state that ENCBLK leaves: DIN's block encrypted, and the round state of its last round (R166). -/
def afterEncblk (s : State) (keys : List RoundKey) : State :=
  (s.setDout (encryptWords wgcore keys (dinBlock s))).setRound (roundState wgcore keys (dinBlock s))

/-- ENCBLK reads the whole key (R166). -/
theorem exec_encblk_of_ok {s : State} (herr : s.err = false) (hk : keyOk wgcore s.keylen = true) :
    exec .encblk s = needBytes (readKey s) fun key => .next (afterEncblk s (roundKeys key)) :=
  keyCommand_of_ok herr hk _

/-- Settles O23: the body of BSTART runs, and PREPARE_NET follows its bit map. -/
theorem bstartLoadsThePreparedBlock : Obligations.BstartLoadsThePreparedBlock :=
  fun s herr => ⟨_, _, exec_bstart_of_ok herr, fun _ hi => getLsbD_defaultPrepare s.din0 s.din1 hi⟩

/-- Settles O24: the body of BFINISH runs, and FINALIZE_NET follows its bit map, SR before SL. -/
theorem bfinishOutputsTheFinalizedState : Obligations.BfinishOutputsTheFinalizedState :=
  fun s herr => ⟨_, _, exec_bfinish_of_ok herr, fun _ hi => getLsbD_defaultFinalize s.sr s.sl hi⟩

/-- Settles O25: the chunk is read, and `roundStep` is the two half-rounds of R161. -/
theorem roundUpdatesBothHalves : Obligations.RoundUpdatesBothHalves := by
  intro k s chunk herr hk hround hchunk
  have hread : readChunk s k.toNat = some (chunkOf chunk 0) := readChunk_eq_some.mpr ⟨chunk, hchunk, rfl⟩
  refine ⟨_, _, rfl, rfl, ?_⟩
  rw [exec_round_of_ok herr hk hround, hread, needBytes_some]
  simp only [← ror32_eq_rotateRight _ 4 (by decide)]
  rfl

/-- The round state of a byte key is the fold of its chunks over the round indices (R160, R162). -/
theorem roundState_roundKeys (c : Config) (key : List Byte) (b : Block) :
    roundState c (roundKeys key) b =
      (List.range (key.length / 16)).foldl (fun st k => roundStep c (chunkOf key k) st) (c.prepareNet b.1 b.2) := by
  rw [roundState, roundKeys, List.foldl_map]

/-- Settles O26: the key is read whole, DIN's bytes are those of the block in DIN, and the key's chunks are the round
keys in order. -/
theorem encblkEncryptsTheInputBlock : Obligations.EncblkEncryptsTheInputBlock := by
  intro s key herr hk hkey
  have hread : readKey s = some key := hkey
  have hlen : key.length = s.keylen.toNat := Memory.length_of_readBytes _ _ _ _ hkey
  refine ⟨encryptWords wgcore (roundKeys key) (dinBlock s), roundState wgcore (roundKeys key) (dinBlock s), ?_, ?_, ?_⟩
  · rw [exec_encblk_of_ok herr hk, hread, needBytes_some]
    rfl
  · change _ = encryptBlock wgcore (blockBytes (dinBlock s)) key
    rw [encryptBlock, blockOf_blockBytes_zero]
    rfl
  · rw [← hlen]
    exact roundState_roundKeys wgcore key (dinBlock s)

end Sys2Proof.Machine
end

section
/-! The fault UNWRITTEN_READ of a command (60_exceptions.md R216): the reads of key, chunk and buffer fail as soon as
one of their bytes is UNWRITTEN (10_state.md R33), and the command that needs them then faults. -/

namespace Sys2Proof.Machine

theorem readKey_of_unwritten {s : State} (h : ∃ j, j < s.keylen.toNat ∧ s.keymem.read j = none) : readKey s = none :=
  (Memory.readBytes_eq_none _ _ _).mpr (by simpa only [Nat.zero_add] using h)

theorem readData_of_unwritten {s : State} (h : ∃ j, j < s.dlen.toNat ∧ s.datamem.read j = none) : readData s = none :=
  (Memory.readBytes_eq_none _ _ _).mpr (by simpa only [Nat.zero_add] using h)

theorem readChunk_of_unwritten {s : State} {k : Nat} (h : ∃ j, j < 16 ∧ s.keymem.read (16 * k + j) = none) :
    readChunk s k = none :=
  readChunk_eq_none.mpr ((Memory.readBytes_eq_none _ _ _).mpr h)

/-- CBCBLK, which reads the key after its checks (44_chaining.md R192). -/
theorem exec_cbcblk_of_unwritten {s : State} (herr : s.err = false) (hk : keyOk wgcore s.keylen = true)
    (hread : readKey s = none) : exec .cbcblk s = .fault .unwrittenRead := by
  rw [exec, execCbcblk, keyCommand_of_ok herr hk, hread, needBytes_none]

/-- CBCBUF, which reads key and buffer after its checks, needs both (44_chaining.md R193). -/
theorem exec_cbcbuf_of_unwritten {s : State} (herr : s.err = false) (hk : keyOk wgcore s.keylen = true)
    (hdlen : dlenOk wgcore s.dlen = true) (hread : readKey s = none ∨ readData s = none) :
    exec .cbcbuf s = .fault .unwrittenRead := by
  rw [exec, execCbcbuf, keyCommand_of_ok herr hk, if_pos hdlen]
  obtain hkey | hdata := hread
  · rw [hkey, needBytes_none]
  · cases readKey s with
    | none => rw [needBytes_none]
    | some key => rw [needBytes_some, hdata, needBytes_none]

/-- Settles O16: each command needs the read that the UNWRITTEN byte makes fail. -/
theorem unwrittenOperandByteFaults : Obligations.UnwrittenOperandByteFaults := by
  intro s herr hk
  refine ⟨fun hbyte => ?_, fun hbyte hdlen => ?_, fun k hround hbyte => ?_⟩
  · have hread := readKey_of_unwritten hbyte
    refine ⟨?_, exec_cbcblk_of_unwritten herr hk hread,
      fun hdlen => exec_cbcbuf_of_unwritten herr hk hdlen (.inl hread)⟩
    rw [exec_encblk_of_ok herr hk, hread, needBytes_none]
  · exact exec_cbcbuf_of_unwritten herr hk hdlen (.inr (readData_of_unwritten hbyte))
  · rw [exec_round_of_ok herr hk hround, readChunk_of_unwritten hbyte, needBytes_none]

end Sys2Proof.Machine
end

section
/-! The key bits that a round ignores (43_feistel.md R169): `mix` looks up the top six bits of every byte of its
arguments (41_substitution.md R120), of which the second has been rotated right by 4. -/

namespace Sys2Proof.Machine

/-- The bits of a word that `mix` looks up: all but bits 1:0 of each byte (R120). -/
def mixMask : Word := 0xFCFCFCFC#32

/-- A field under a mask that keeps all its bits. -/
theorem mixField_and {m : Word} {o : Nat} (hm : mixField m o = BitVec.allOnes 6) (w : Word) :
    mixField (w &&& m) o = mixField w o := by
  have hand : mixField (w &&& m) o = mixField w o &&& mixField m o := BitVec.extractLsb'_and
  rw [hand, hm, BitVec.and_allOnes]

/-- `mix` sees no bit of its arguments outside the mask, whatever the SBOX (R121). -/
theorem mix_and_mixMask (c : Config) (w1 w2 : Word) : mix c (w1 &&& mixMask) (w2 &&& mixMask) = mix c w1 w2 := by
  have h2 := mixField_and (m := mixMask) (o := 2) rfl
  have h10 := mixField_and (m := mixMask) (o := 10) rfl
  have h18 := mixField_and (m := mixMask) (o := 18) rfl
  have h26 := mixField_and (m := mixMask) (o := 26) rfl
  simp only [mix, h2, h10, h18, h26]

/-- Rotation moves bits and so distributes over AND (40_bitops.md R101). -/
theorem ror32_and (v u : Word) {n : Nat} (hn : n < 32) : ror32 (v &&& u) n = ror32 v n &&& ror32 u n := by
  refine BitVec.eq_of_getLsbD_eq fun i hi => ?_
  simp only [getLsbD_ror32 _ hn hi, BitVec.getLsbD_and]

/-- Words that agree under a mask agree under it when both are whitened with the same word. -/
theorem xor_and_congr {k k' m : Word} (h : k &&& m = k' &&& m) (s : Word) : (k ^^^ s) &&& m = (k' ^^^ s) &&& m := by
  have hdistrib (x : Word) : (x ^^^ s) &&& m = (x &&& m) ^^^ (s &&& m) := by grind
  rw [hdistrib, hdistrib, h]

/-- The bits of the second key word that a half-round looks up are those that the rotation by 4 moves into the mask:
all but bits 5:4 of each byte (R169 item 1). -/
theorem halfRound_congr (c : Config) {kL kL' kR kR' : Word} (hL : kL &&& mixMask = kL' &&& mixMask)
    (hR : kR &&& 0xCFCFCFCF#32 = kR' &&& 0xCFCFCFCF#32) (s : Word) : halfRound c kL kR s = halfRound c kL' kR' s := by
  have hrot (v : Word) : ror32 v 4 &&& mixMask = ror32 (v &&& 0xCFCFCFCF#32) 4 :=
    (ror32_and v 0xCFCFCFCF#32 (n := 4) (by decide)).symm
  rw [halfRound, halfRound, ← mix_and_mixMask, xor_and_congr hL, hrot, xor_and_congr hR, ← hrot, mix_and_mixMask]

/-- Settles O52: neither half-round looks up a bit of its key words that R169 lists. -/
theorem ignoredKeyBitsHaveNoEffect : Obligations.IgnoredKeyBitsHaveNoEffect := by
  intro c k k' st hL1 hL2 hR1 hR2
  simp only [roundStep, halfRound_congr c hL1 hR1, halfRound_congr c hL2 hR2]

end Sys2Proof.Machine
end

section
/-! Encryption is a bijection on blocks (43_feistel.md R170): each half-round XORs a value of the one half into the
other, so a round is undone by the same two XORs in reverse order, whatever `mix` is. -/

namespace Sys2Proof.Machine

/-- The two half-rounds of `roundStep` in reverse order. -/
def roundUndo (c : Config) (k : RoundKey) (st : Word × Word) : Word × Word :=
  let sL := halfRound c k.kL2 k.kR2 st.2 ^^^ st.1
  let sR := st.2 ^^^ halfRound c k.kL1 k.kR1 sL
  (sL, sR)

theorem roundUndo_roundStep (c : Config) (k : RoundKey) (st : Word × Word) : roundUndo c k (roundStep c k st) = st := by
  simp [roundUndo, roundStep, BitVec.xor_assoc st.2]

theorem roundStep_roundUndo (c : Config) (k : RoundKey) (st : Word × Word) : roundStep c k (roundUndo c k st) = st := by
  simp [roundUndo, roundStep, BitVec.xor_assoc st.2]

theorem roundStep_bijective (c : Config) (k : RoundKey) : Function.Bijective (roundStep c k) :=
  Function.bijective_iff_has_inverse.mpr ⟨roundUndo c k, roundUndo_roundStep c k, roundStep_roundUndo c k⟩

/-- All rounds in order, one after the other. -/
theorem foldl_roundStep_bijective (c : Config) (keys : List RoundKey) :
    Function.Bijective fun st => keys.foldl (fun st k => roundStep c k st) st := by
  induction keys with
  | nil => exact Function.bijective_id
  | cons k keys ih => exact ih.comp (roundStep_bijective c k)

theorem roundState_bijective {c : Config} (hc : c.Legal) (keys : List RoundKey) :
    Function.Bijective (roundState c keys) :=
  (foldl_roundStep_bijective c keys).comp hc.prepare_bijective

theorem finishBlock_bijective {c : Config} (hc : c.Legal) : Function.Bijective (finishBlock c) :=
  hc.finalize_bijective.comp Prod.swap_bijective

theorem encryptWords_bijective {c : Config} (hc : c.Legal) (keys : List RoundKey) :
    Function.Bijective (encryptWords c keys) :=
  (finishBlock_bijective hc).comp (roundState_bijective hc keys)

theorem blockBytes_injective : Function.Injective blockBytes :=
  Function.LeftInverse.injective (g := fun b => blockOf b 0) blockOf_blockBytes_zero

/-- Settles O53: the networks and the rounds are bijections, and eight bytes are the bytes of one block. -/
theorem encryptionIsABijectionOnBlocks : Obligations.EncryptionIsABijectionOnBlocks := by
  intro c hc
  refine ⟨encryptWords_bijective hc, fun key b b' hb hb' hsame => ?_⟩
  have hblock : blockOf b 0 = blockOf b' 0 := (encryptWords_bijective hc _).injective (blockBytes_injective hsame)
  rw [← blockBytes_blockOf b hb, hblock, blockBytes_blockOf b' hb']

end Sys2Proof.Machine
end

section
/-! The stepped form of ENCBLK (43_feistel.md R168): a key that is written can be read chunk by chunk, so the ROUND
commands in order leave the fold of the key's chunks as the round state. -/

namespace Sys2Proof.Machine

/-- A part of a read of several bytes. -/
theorem Memory.readBytes_drop_take {m : Memory} {n : Nat} {bs : List Byte} (h : m.readBytes 0 n = some bs) {a l : Nat}
    (hfits : a + l ≤ n) : m.readBytes a l = some ((bs.drop a).take l) := by
  obtain ⟨hlen, hread⟩ := (Memory.readBytes_eq_some n m 0 bs).mp h
  have hpart : ((bs.drop a).take l).length = l := by
    rw [List.length_take, List.length_drop]
    omega
  refine (Memory.readBytes_eq_some l m a _).mpr ⟨hpart, fun i hi => ?_⟩
  rw [List.getElem?_take_of_lt hi, List.getElem?_drop, ← hread (a + i) (by omega), Nat.zero_add]

/-- The word at `i` of a part of a byte string, wholly inside the part. -/
theorem le32_drop_take (b : List Byte) (o : Nat) {n i : Nat} (hi : i + 4 ≤ n) :
    le32 ((b.drop o).take n) i = le32 b (o + i) := by
  have hbyte : ∀ j, j < n → byteAt ((b.drop o).take n) j = byteAt b (o + j) := fun j hj => by
    simp [byteAt, List.getD_eq_getElem?_getD, hj]
  simp only [le32, hbyte i (by omega), hbyte (i + 1) (by omega), hbyte (i + 2) (by omega), hbyte (i + 3) (by omega),
    Nat.add_assoc]

/-- Chunk `k` of a key is the chunk that its bytes from 16k on make (R160). -/
theorem chunkOf_drop_take (key : List Byte) (k : Nat) : chunkOf ((key.drop (16 * k)).take 16) 0 = chunkOf key k := by
  simp [chunkOf, le32_drop_take]

/-- A written key is read chunk by chunk (R163). -/
theorem readChunk_of_readKey {s : State} {key : List Byte} (hkey : readKey s = some key) {k : Nat}
    (hround : k < s.keylen.toNat / 16) : readChunk s k = some (chunkOf key k) :=
  readChunk_eq_some.mpr ⟨_, Memory.readBytes_drop_take hkey (by omega), (chunkOf_drop_take key k).symm⟩

/-- The indices of the rounds fit in ROUND's operand (10_state.md R28, 30_encoding.md R81). -/
theorem toNat_ofNat_roundIndex {w : Word} (hk : keyOk wgcore w = true) {k : Nat} (hround : k < w.toNat / 16) :
    (BitVec.ofNat 8 k).toNat = k := by
  obtain ⟨-, -, hmax⟩ := (keyOk_iff wgcore w).mp hk
  have hmax : w.toNat ≤ 128 := hmax
  exact Nat.mod_eq_of_lt (by omega)

/-- ROUND of an index below the number of rounds, when the key is written (R163). -/
theorem exec_round_of_readKey {s : State} {key : List Byte} {k : Nat} (herr : s.err = false)
    (hk : keyOk wgcore s.keylen = true) (hkey : readKey s = some key) (hround : k < s.keylen.toNat / 16) :
    exec (.round (BitVec.ofNat 8 k)) s = .next (s.setRound (roundStep wgcore (chunkOf key k) (s.sl, s.sr))) := by
  have hindex := toNat_ofNat_roundIndex hk hround
  rw [exec_round_of_ok herr hk (hindex.symm ▸ hround), hindex, readChunk_of_readKey hkey hround, needBytes_some]

end Sys2Proof.Machine

namespace Sys2Proof.Safety

open Sys2Proof.Machine Sys2Proof.HostSide

theorem execAll_cons_of_next {i : Instr} {is : List Instr} {s t : State} (h : exec i s = .next t) :
    execAll (i :: is) s = execAll is t := by
  simp only [execAll, h]

/-- Commands in two parts, when the first part completes. -/
theorem execAll_append_of_next {is js : List Instr} {s t : State} (h : execAll is s = .next t) :
    execAll (is ++ js) s = execAll js t := by
  induction is generalizing s with
  | nil =>
    cases h
    rfl
  | cons i is ih =>
    cases hi : exec i s with
    | next u =>
      rw [execAll_cons_of_next hi] at h
      rw [List.cons_append, execAll_cons_of_next hi, ih h]
    | fault f => simp [execAll, hi] at h
    | refused r => simp [execAll, hi] at h

/-- ROUND 0 to ROUND n - 1 in order fold the key's chunks over the round state and change nothing else (R163). -/
theorem execAll_rounds {s : State} {key : List Byte} (herr : s.err = false) (hk : keyOk wgcore s.keylen = true)
    (hkey : readKey s = some key) {n : Nat} (hn : n ≤ s.keylen.toNat / 16) :
    execAll ((List.range n).map fun k => Instr.round (BitVec.ofNat 8 k)) s =
      .next (s.setRound ((List.range n).foldl (fun st k => roundStep wgcore (chunkOf key k) st) (s.sl, s.sr))) := by
  induction n with
  | zero => rfl
  | succ n ih =>
    have hround : n < s.keylen.toNat / 16 := by omega
    rw [List.range_succ, List.map_append, execAll_append_of_next (ih (by omega)), List.foldl_append]
    exact execAll_cons_of_next (exec_round_of_readKey (s := s.setRound _) herr hk hkey hround)

/-- Settles O54: BSTART, the rounds and BFINISH leave the prepared, the last and the finished state of `encryptWords` in
turn. -/
theorem steppedEncryptionEqualsEncblk : Obligations.SteppedEncryptionEqualsEncblk := by
  intro s key herr hk hkey
  have hread : readKey s = some key := hkey
  have hlen : key.length = s.keylen.toNat := Memory.length_of_readBytes _ _ _ _ hkey
  have hrounds : execAll ((List.range (s.keylen.toNat / 16)).map fun k => Instr.round (BitVec.ofNat 8 k))
      (s.setRound (wgcore.prepareNet s.din0 s.din1)) =
        .next (s.setRound (roundState wgcore (roundKeys key) (dinBlock s))) := by
    rw [roundState_roundKeys, hlen]
    exact execAll_rounds (s := s.setRound _) herr hk hread le_rfl
  refine ⟨afterEncblk s (roundKeys key), ?_, ?_, rfl, rfl, rfl, rfl⟩
  · calc execAll (encryptCommands (s.keylen.toNat / 16)) s
        = execAll (((List.range (s.keylen.toNat / 16)).map fun k => Instr.round (BitVec.ofNat 8 k)) ++ [Instr.bfinish])
            (s.setRound (wgcore.prepareNet s.din0 s.din1)) := execAll_cons_of_next (exec_bstart_of_ok herr)
      _ = execAll [.bfinish] (s.setRound (roundState wgcore (roundKeys key) (dinBlock s))) :=
        execAll_append_of_next hrounds
      _ = .next (afterEncblk s (roundKeys key)) :=
        execAll_cons_of_next (exec_bfinish_of_ok (s := s.setRound _) herr)
  · rw [exec_encblk_of_ok herr hk, hread, needBytes_some]

end Sys2Proof.Safety
end

section
/-! BFINISH after a block (43_feistel.md R167): ENCBLK, CBCBLK and CBCBUF leave the round state of their last block, and
that block's output is what the state finishes to. -/

namespace Sys2Proof.Machine

/-- A command that uses the key and ends without error has run its body: R211 steps 1 and 3 end with ERR = 1. -/
theorem keyCommand_eq_next_of_ok {c : Config} {s t : State} {body : Host.Outcome State Fault Refusal}
    (h : keyCommand c s body = .next t) (ht : t.err = false) : body = .next t := by
  obtain ⟨herr, hc⟩ | ⟨-, -, hc⟩ | ⟨-, -, hc⟩ := keyCommand_cases c s body <;> rw [hc] at h
  · cases h
    cases ht.symm.trans herr
  · cases h
    cases ht
  · exact h

/-- Block `i` of the ciphertext is what state `i` of the chain finishes to (44_chaining.md R190). -/
theorem blockOf_encryptChained {c : Config} {plain key : List Byte} {i : Nat} {st : Word × Word}
    (h : (chainStates c (roundKeys key) (0#32, 0#32) (blocksOf plain))[i]? = some st) :
    blockOf (encryptChained c plain key) (8 * i) = finishBlock c st := by
  rw [encryptChained_eq_flatten, ← blockOf_drop_take,
    take_drop_flatten_blockBytes _ i (finishBlock c st) (by rw [List.getElem?_map, h]; rfl), blockOf_blockBytes_zero]

/-- CBCBUF on a buffer that is not empty leaves in PREV the block that its round state finishes to (R167). -/
theorem prevBlock_of_exec_cbcbuf {s t : State} (h : exec .cbcbuf s = .next t) (ht : t.err = false)
    (hdata : s.dlen.toNat ≠ 0) : finishBlock wgcore (t.sl, t.sr) = prevBlock t := by
  have hbody := keyCommand_eq_next_of_ok h ht
  split at hbody
  case isFalse =>
    cases hbody
    cases ht
  case isTrue hdlen =>
    obtain ⟨hblocks, -⟩ := (dlenOk_iff wgcore s.dlen).mp hdlen
    obtain ⟨key, -, hbody⟩ := needBytes_eq_next hbody
    obtain ⟨plain, hplain, hbody⟩ := needBytes_eq_next hbody
    have hlen : plain.length = s.dlen.toNat := Memory.length_of_readBytes _ _ _ _ hplain
    have hstates : (chainStates wgcore (roundKeys key) (0#32, 0#32) (blocksOf plain)).length = s.dlen.toNat / 8 := by
      rw [chainStates_length, blocksOf_length, hlen]
    simp only at hbody
    split at hbody
    case h_1 hnone =>
      rw [List.getLast?_eq_none_iff.mp hnone, List.length_nil] at hstates
      omega
    case h_2 st hlast =>
      cases hbody
      have hat : s.dlen.toNat - 8 = 8 * (s.dlen.toNat / 8 - 1) := by omega
      rw [List.getLast?_eq_getElem?, hstates] at hlast
      change finishBlock wgcore st = blockOf _ (s.dlen.toNat - 8)
      rw [hat, blockOf_encryptChained hlast]

/-- Settles O55: the round state finishes to the block that DOUT, or PREV after CBCBUF, holds already. -/
theorem bfinishAfterABlockRecomputesTheOutput : Obligations.BfinishAfterABlockRecomputesTheOutput := by
  intro s t ht
  rw [exec_bfinish_of_ok ht]
  refine ⟨?_, fun h hdata => ?_⟩
  · rintro (h | h)
    all_goals
      obtain ⟨key, -, hbody⟩ := needBytes_eq_next (keyCommand_eq_next_of_ok h ht)
      cases hbody
      rfl
  · rw [prevBlock_of_exec_cbcbuf h ht hdata]
    rfl

end Sys2Proof.Machine
end

section
/-! The chain of R190 on bytes: the ciphertext block before block `i`, the chain's state `i` in terms of it, and the
ciphertext block by block. -/

namespace Sys2Proof.Machine

theorem xorBlock_zero (b : Block) : xorBlock b (0#32, 0#32) = b := by simp [xorBlock]

/-- `encryptBlock` on the bytes of a block is `encryptWords` on the block (43_feistel.md R162). -/
theorem encryptBlock_blockBytes (c : Config) (b : Block) (key : List Byte) :
    encryptBlock c (blockBytes b) key = blockBytes (encryptWords c (roundKeys key) b) := by
  rw [encryptBlock, blockOf_blockBytes_zero]

/-- The eight bytes of a whole block inside a byte string. -/
theorem drop_take_eq_blockBytes {b : List Byte} {o : Nat} (h : o + 8 ≤ b.length) :
    (b.drop o).take 8 = blockBytes (blockOf b o) := by
  have hlen : ((b.drop o).take 8).length = 8 := by
    rw [List.length_take, List.length_drop]
    omega
  rw [← blockOf_drop_take, blockBytes_blockOf _ hlen]

/-- What the block at offset `o` of a plaintext is XORed with (44_chaining.md R190): the ciphertext block before it, or
zero for the first block. -/
def blockBefore (cipher : List Byte) (o : Nat) : Block := if o = 0 then (0#32, 0#32) else blockOf cipher (o - 8)

theorem blockBefore_zero (cipher : List Byte) : blockBefore cipher 0 = (0#32, 0#32) := if_pos rfl

/-- The two words of the block before the block at a whole offset. -/
theorem blockBefore_eq_le32 (cipher : List Byte) {o : Nat} (ho : o % 8 = 0) :
    blockBefore cipher o = if o = 0 then (0#32, 0#32) else (le32 cipher (o - 8), le32 cipher (o - 4)) := by
  unfold blockBefore
  split
  · rfl
  · rw [blockOf, show o - 8 + 4 = o - 4 by omega]

/-- State `i` of the chain of a plaintext, from the plaintext and the ciphertext (R190). -/
theorem chainStates_blocksOf (c : Config) (key : List Byte) {plain : List Byte} {i : Nat} (hi : i < plain.length / 8) :
    (chainStates c (roundKeys key) (0#32, 0#32) (blocksOf plain))[i]? = some (roundState c (roundKeys key)
      (xorBlock (blockOf plain (8 * i)) (blockBefore (encryptChained c plain key) (8 * i)))) := by
  have hblocks : i < (blocksOf plain).length := by rwa [blocksOf_length]
  obtain ⟨st, prev, hat, hprev, hst⟩ := chainStates_getElem? c (roundKeys key) (blocksOf plain) (0#32, 0#32) i hblocks
  have hblock : (blocksOf plain)[i] = blockOf plain (8 * i) := by simp [blocksOf]
  have hbefore : prev = blockBefore (encryptChained c plain key) (8 * i) := by
    cases i with
    | zero => exact hprev
    | succ i =>
      obtain ⟨st0, hat0, hprev⟩ := hprev
      exact hprev.trans (blockOf_encryptChained hat0).symm
  rw [hat, hst, hblock, hbefore]

/-- The last state of the chain of a plaintext of whole blocks. -/
theorem chainStates_blocksOf_getLast? (c : Config) (key : List Byte) {plain : List Byte} (hwhole : plain.length % 8 = 0)
    (hpos : plain.length ≠ 0) :
    (chainStates c (roundKeys key) (0#32, 0#32) (blocksOf plain)).getLast? = some (roundState c (roundKeys key)
      (xorBlock (blockOf plain (plain.length - 8))
        (blockBefore (encryptChained c plain key) (plain.length - 8)))) := by
  have hat : plain.length - 8 = 8 * (plain.length / 8 - 1) := by omega
  rw [List.getLast?_eq_getElem?, chainStates_length, blocksOf_length, hat]
  exact chainStates_blocksOf c key (by omega)

/-- The last block of the ciphertext of whole blocks is what the last state of the chain finishes to. -/
theorem blockOf_encryptChained_last {c : Config} {plain key : List Byte} {st : Word × Word}
    (hwhole : plain.length % 8 = 0)
    (hlast : (chainStates c (roundKeys key) (0#32, 0#32) (blocksOf plain)).getLast? = some st) :
    blockOf (encryptChained c plain key) (plain.length - 8) = finishBlock c st := by
  have hat : plain.length - 8 = 8 * (plain.length / 8 - 1) := by omega
  rw [List.getLast?_eq_getElem?, chainStates_length, blocksOf_length] at hlast
  rw [hat, blockOf_encryptChained hlast]

/-- The ciphertext of whole blocks is as long as its plaintext. -/
theorem encryptChained_length_of_whole (c : Config) {plain : List Byte} (key : List Byte)
    (hwhole : plain.length % 8 = 0) : (encryptChained c plain key).length = plain.length := by
  rw [encryptChained_length]
  omega

/-- Settles O31: block `i` is what state `i` of the chain finishes to, and the XOR of R190 is that of the blocks. -/
theorem encryptChainedBlockByBlock : Obligations.EncryptChainedBlockByBlock := by
  intro c plain key hwhole cipher block
  have hlen : cipher.length = plain.length := encryptChained_length_of_whole c key hwhole
  refine ⟨hlen, fun i hi => ?_⟩
  have hplain : block plain i = blockBytes (blockOf plain (8 * i)) := drop_take_eq_blockBytes (by omega)
  have hcipher : block cipher i = blockBytes (blockOf cipher (8 * i)) := drop_take_eq_blockBytes (by omega)
  have hbefore : (if i = 0 then List.replicate 8 0#8 else block cipher (i - 1)) =
      blockBytes (blockBefore cipher (8 * i)) := by
    cases i with
    | zero =>
      rw [if_pos rfl, Nat.mul_zero, blockBefore_zero]
      rfl
    | succ i => exact drop_take_eq_blockBytes (by omega)
  rw [hplain, hcipher, hbefore, zipWith_xor_blockBytes, encryptBlock_blockBytes,
    blockOf_encryptChained (chainStates_blocksOf c key hi)]
  rfl

end Sys2Proof.Machine
end

section
/-! What a change to one plaintext block does to a chain (44_chaining.md R195): as a function of the plaintext block, and
as a function of the block before it, each ciphertext block is a bijection. -/

namespace Sys2Proof.Machine

/-- The ciphertext blocks of a chain whose accumulator starts at `start` (R190). -/
def cipherBlocks (c : Config) (keys : List RoundKey) (start : Block) (ps : List Block) : List Block :=
  (chainStates c keys start ps).map (finishBlock c)

theorem cipherBlocks_cons (c : Config) (keys : List RoundKey) (start p : Block) (ps : List Block) :
    cipherBlocks c keys start (p :: ps) =
      encryptWords c keys (xorBlock p start) :: cipherBlocks c keys (encryptWords c keys (xorBlock p start)) ps := rfl

theorem xorBlock_right_injective (b : Block) : Function.Injective (xorBlock b) := by
  intro x y h
  simpa [xorBlock, Prod.ext_iff] using h

theorem xorBlock_left_injective (b : Block) : Function.Injective fun x => xorBlock x b := by
  intro x y h
  simpa [xorBlock, Prod.ext_iff] using h

theorem encryptWords_xorBlock_right_injective {c : Config} (hc : c.Legal) (keys : List RoundKey) (p : Block) :
    Function.Injective fun prev => encryptWords c keys (xorBlock p prev) :=
  (encryptWords_bijective hc keys).injective.comp (xorBlock_right_injective p)

theorem encryptWords_xorBlock_left_injective {c : Config} (hc : c.Legal) (keys : List RoundKey) (prev : Block) :
    Function.Injective fun p => encryptWords c keys (xorBlock p prev) :=
  (encryptWords_bijective hc keys).injective.comp (xorBlock_left_injective prev)

/-- Two chains over the same plaintext from different accumulators never meet: the difference passes from each
ciphertext block to the next. -/
theorem cipherBlocks_ne_of_start_ne {c : Config} (hc : c.Legal) (keys : List RoundKey) {start start' : Block}
    (hne : start ≠ start') {ps : List Block} {i : Nat} (hi : i < ps.length) :
    (cipherBlocks c keys start ps)[i]? ≠ (cipherBlocks c keys start' ps)[i]? := by
  induction ps generalizing start start' i with
  | nil => simp at hi
  | cons p ps ih =>
    have hfirst := (encryptWords_xorBlock_right_injective hc keys p).ne hne
    cases i with
    | zero => simpa [cipherBlocks_cons] using hfirst
    | succ i => simpa [cipherBlocks_cons] using ih hfirst (by simpa using hi)

/-- Chains over two plaintexts that differ in block `j` alone agree before block `j` and differ from there on. -/
theorem cipherBlocks_set_iff {c : Config} (hc : c.Legal) (keys : List RoundKey) {start p : Block} {ps : List Block}
    {i j : Nat} (hj : ps[j]? ≠ some p) (hi : i < ps.length) :
    (cipherBlocks c keys start ps)[i]? = (cipherBlocks c keys start (ps.set j p))[i]? ↔ i < j := by
  induction ps generalizing start i j with
  | nil => simp at hi
  | cons b ps ih =>
    cases j with
    | zero =>
      have hfirst := (encryptWords_xorBlock_left_injective hc keys start).ne (a₁ := b) (a₂ := p) (by simpa using hj)
      cases i with
      | zero => simpa [cipherBlocks_cons] using hfirst
      | succ i => simpa [cipherBlocks_cons] using cipherBlocks_ne_of_start_ne hc keys hfirst (by simpa using hi)
    | succ j =>
      cases i with
      | zero => simp [cipherBlocks_cons]
      | succ i => simpa [cipherBlocks_cons] using ih (by simpa using hj) (by simpa using hi)

/-- Settles O57: a block's output is a bijection of the block before it, and the first block is XORed with zero. -/
theorem plaintextChangePropagatesDownTheChain : Obligations.PlaintextChangePropagatesDownTheChain := by
  intro c keys hc
  refine ⟨fun p prev prev' => (encryptWords_xorBlock_right_injective hc keys p).ne_iff, fun p ps => ?_,
    fun blocks j p _ hne i hi => cipherBlocks_set_iff hc keys hne hi⟩
  change some (encryptWords c keys (xorBlock p (0#32, 0#32))) = _
  rw [xorBlock_zero]

end Sys2Proof.Machine
end

section
/-! The chaining commands CBCINIT, CBCBLK and CBCBUF (44_chaining.md R191 to R193) with ERR = 0, and KEYOK = 1 where they
use the key: each says once what its body leaves. -/

namespace Sys2Proof.Machine

theorem exec_cbcinit_of_ok {s : State} (herr : s.err = false) : exec .cbcinit s = .next (s.setPrev (0#32, 0#32)) :=
  command_of_ok herr _

/-- Settles O27. CBCINIT is no key command, so ERR = 0 is all that its body needs. -/
theorem cbcinitClearsTheAccumulator : Obligations.CbcinitClearsTheAccumulator := fun _ herr => exec_cbcinit_of_ok herr

/-- The state that CBCBLK leaves when `st` is its last round state: the output block in DOUT and PREV (R192). -/
def afterCbcblk (s : State) (st : Word × Word) : State :=
  ((s.setDout (finishBlock wgcore st)).setPrev (finishBlock wgcore st)).setRound st

/-- CBCBLK with its key written (R192). -/
theorem exec_cbcblk_of_readKey {s : State} {key : List Byte} (herr : s.err = false) (hk : keyOk wgcore s.keylen = true)
    (hkey : readKey s = some key) : exec .cbcblk s =
      .next (afterCbcblk s (roundState wgcore (roundKeys key) (xorBlock (dinBlock s) (prevBlock s)))) := by
  refine (keyCommand_of_ok herr hk _).trans ?_
  rw [hkey, needBytes_some]
  rfl

/-- Settles O28: DIN XOR PREV is encrypted as a block, and its bytes are the byte-wise XOR. -/
theorem cbcblkChainsOneBlock : Obligations.CbcblkChainsOneBlock := by
  intro s key herr hk hkey
  have hlen : key.length = s.keylen.toNat := Memory.length_of_readBytes _ _ _ _ hkey
  refine ⟨_, _, exec_cbcblk_of_readKey herr hk hkey, ?_, rfl, ?_⟩
  · change _ = encryptBlock wgcore (List.zipWith _ (blockBytes (dinBlock s)) (blockBytes (prevBlock s))) key
    rw [zipWith_xor_blockBytes, encryptBlock_blockBytes]
    rfl
  · rw [← hlen]
    exact roundState_roundKeys wgcore key _

/-- The state that CBCBUF leaves when `st` is the last round state of its chain (R193). -/
def afterCbcbuf (s : State) (cipher : List Byte) (st : Word × Word) : State :=
  ((s.setDatamem (s.datamem.writeBytes 0 cipher)).setPrev (finishBlock wgcore st)).setRound st

/-- CBCBUF on a buffer of at least one block, key and buffer written (R193). -/
theorem exec_cbcbuf_of_last {s : State} {key plain : List Byte} {st : Word × Word} (herr : s.err = false)
    (hk : keyOk wgcore s.keylen = true) (hdlen : dlenOk wgcore s.dlen = true) (hkey : readKey s = some key)
    (hplain : readData s = some plain)
    (hlast : (chainStates wgcore (roundKeys key) (0#32, 0#32) (blocksOf plain)).getLast? = some st) :
    exec .cbcbuf s = .next (afterCbcbuf s (encryptChained wgcore plain key) st) := by
  have hlen : plain.length = s.dlen.toNat := Memory.length_of_readBytes _ _ _ _ hplain
  obtain ⟨hwhole, -⟩ := (dlenOk_iff wgcore s.dlen).mp hdlen
  refine (keyCommand_of_ok herr hk _).trans ((if_pos hdlen).trans ?_)
  rw [hkey, needBytes_some, hplain, needBytes_some]
  simp only [hlast, ← hlen, blockOf_encryptChained_last (hlen ▸ hwhole) hlast]
  rfl

/-- The ciphertext that CBCBUF leaves is what DATAMEM reads over the length of the plaintext (R193). -/
theorem readBytes_afterCbcbuf {s : State} {plain key : List Byte} {st : Word × Word} (hwhole : plain.length % 8 = 0) :
    (afterCbcbuf s (encryptChained wgcore plain key) st).datamem.readBytes 0 plain.length =
      some (encryptChained wgcore plain key) := by
  rw [← encryptChained_length_of_whole wgcore key hwhole]
  exact Memory.readBytes_writeBytes _ _ _

/-- Settles O30: no block is encrypted, and PREV keeps the start value of the accumulator. -/
theorem cbcbufOnAnEmptyBufferClearsPrev : Obligations.CbcbufOnAnEmptyBufferClearsPrev := by
  intro s key herr hk hdlen hkey
  have hread : readKey s = some key := hkey
  have hplain : readData s = some [] := by
    rw [readData, hdlen]
    rfl
  have hok : dlenOk wgcore s.dlen = true := by rw [hdlen]; rfl
  refine (keyCommand_of_ok herr hk _).trans ((if_pos hok).trans ?_)
  rw [hread, needBytes_some, hplain, needBytes_some]
  rfl

/-- Settles O29: the last state of the chain is that of the last block, XORed with the ciphertext before it. -/
theorem cbcbufEncryptsTheBufferInPlace : Obligations.CbcbufEncryptsTheBufferInPlace := by
  intro s key plain herr hk hblocks hmax hpos hkey hplain
  have hlen : plain.length = s.dlen.toNat := Memory.length_of_readBytes _ _ _ _ hplain
  have hwhole : plain.length % 8 = 0 := hlen ▸ hblocks
  have hdlen : dlenOk wgcore s.dlen = true := (dlenOk_iff _ _).mpr ⟨hblocks, hmax⟩
  have hlast := chainStates_blocksOf_getLast? wgcore key hwhole (hlen ▸ hpos)
  have hexec := exec_cbcbuf_of_last herr hk hdlen hkey hplain hlast
  rw [← hlen]
  refine ⟨_, hexec, rfl, readBytes_afterCbcbuf hwhole, fun a ha => ?_, (blockOf_encryptChained_last hwhole hlast).symm,
    rfl, ?_⟩
  · have hcipher := encryptChained_length_of_whole wgcore key hwhole
    change (s.datamem.writeBytes 0 _).read a = s.datamem.read a
    rw [Memory.read_writeBytes, if_neg (by omega)]
  · rw [← blockBefore_eq_le32 _ (by omega)]
    rfl

end Sys2Proof.Machine
end

section
/-! The three forms of chaining agree (44_chaining.md R194): the chain of CBCBLK commands that the host drives keeps in
PREV, DOUT and (SL, SR) what the state of the chain's last block stands for. -/

namespace Sys2Proof.Machine

/-- The blocks of a string of blocks. -/
theorem blocksOf_flatten_blockBytes (l : List Block) : blocksOf ((l.map blockBytes).flatten) = l := by
  refine List.ext_getElem ?_ fun i hi hl => ?_
  · rw [blocksOf_length, length_flatten_blockBytes]
    omega
  · have hbytes := take_drop_flatten_blockBytes l i l[i] (List.getElem?_eq_getElem hl)
    simp only [blocksOf, List.getElem_map, List.getElem_range]
    rw [← blockOf_drop_take, hbytes, blockOf_blockBytes_zero]

end Sys2Proof.Machine

namespace Sys2Proof.Safety

open Sys2Proof.Machine Sys2Proof.HostSide

/-- A command issued by the host whose execution completes: the run goes on from the state it leaves (R88; 10_state.md
R30). -/
theorem run_issue {i : Instr} (hwf : i.wellFormed = true) {is : List Input} {s t : State}
    (h : exec i ((s.respond .done).setInputs is) = .next (t.setInputs is)) : run (issue i :: is) s = run is t := by
  refine run_cons_of_next ?_
  calc applyInput (issue i) (s.setInputs is)
      = writeCmd (encode i) ((s.setInputs is).respond .done) := by
        simp [applyInput, issue, commandInput, hostAccess, hostWrite, target_cmdOffset, writeReg]
    _ = exec i ((s.respond .done).setInputs is) := writeCmd_of_ok (decodeOfEncodeIsTheCommand i hwf) _
    _ = .next (t.setInputs is) := h

/-- `ldblk` of the bytes of a block puts it into DIN (R89). -/
theorem run_ldblk (p : Block) (is : List Input) (s : State) :
    run (ldblk (blockBytes p) ++ is) s = run is { s with din0 := p.1, din1 := p.2, response := .done } := by
  have hp : (le32 (blockBytes p) 0, le32 (blockBytes p) 4) = p := blockOf_blockBytes_zero p
  obtain ⟨h0, h1⟩ := Prod.ext_iff.mp hp
  simp only at h0 h1
  rw [ldblk, h0, h1, List.cons_append, run_wr rfl, List.cons_append, run_wr rfl]
  rfl

/-- The accesses of a driven chain after its CBCINIT: `ldblk p; cbcblk` for each block (R194). -/
def drivenBlocks (ps : List Block) : List Input := (ps.map fun p => ldblk (blockBytes p) ++ [issue .cbcblk]).flatten

theorem drivenBlocks_cons (p : Block) (ps : List Block) :
    drivenBlocks (p :: ps) = ldblk (blockBytes p) ++ issue .cbcblk :: drivenBlocks ps := by
  simp [drivenBlocks]

/-- The state after `ldblk p; cbcblk`, `st` being the round state of `p` XORed with PREV (R194). -/
def afterDrivenBlock (s : State) (p : Block) (st : Word × Word) : State :=
  afterCbcblk { s with din0 := p.1, din1 := p.2, response := .done } st

theorem run_drivenBlocks_cons {s : State} {key : List Byte} (herr : s.err = false) (hk : keyOk wgcore s.keylen = true)
    (hkey : readKey s = some key) (p : Block) (ps : List Block) :
    run (drivenBlocks (p :: ps)) s = run (drivenBlocks ps)
      (afterDrivenBlock s p (roundState wgcore (roundKeys key) (xorBlock p (prevBlock s)))) := by
  rw [drivenBlocks_cons, run_ldblk]
  exact run_issue rfl (exec_cbcblk_of_readKey
    (s := { s with din0 := p.1, din1 := p.2, response := .done, inputs := drivenBlocks ps }) herr hk hkey)

/-- DOUT, PREV and (SL, SR) are those of a block whose last round state is `st` (43_feistel.md R167). -/
structure ShowsBlock (st : Word × Word) (s : State) : Prop where
  dout : (s.dout0, s.dout1) = finishBlock wgcore st
  prev : (s.prev0, s.prev1) = finishBlock wgcore st
  round : (s.sl, s.sr) = st

/-- A chain of driven blocks, begun where a block has just been encrypted, ends at the last state of the chain that goes
on from that block's output (R190, R194). -/
theorem run_drivenBlocks {s : State} {key : List Byte} {st : Word × Word} (herr : s.err = false)
    (hk : keyOk wgcore s.keylen = true) (hkey : readKey s = some key) (hs : ShowsBlock st s) (ps : List Block) :
    ∃ t, run (drivenBlocks ps) s = .next t ∧
      ShowsBlock ((chainStates wgcore (roundKeys key) (finishBlock wgcore st) ps).getLastD st) t := by
  induction ps generalizing s st with
  | nil => exact ⟨s.setInputs [], run_nil s, hs.dout, hs.prev, hs.round⟩
  | cons p ps ih =>
    have hprev : prevBlock s = finishBlock wgcore st := hs.prev
    rw [run_drivenBlocks_cons herr hk hkey, hprev, chainStates, List.getLastD_cons]
    exact ih (s := afterDrivenBlock s p _) herr hk hkey ⟨rfl, rfl, rfl⟩

/-- CBCINIT and the driven blocks after it (R194). -/
theorem run_chainProgram_eq {s : State} (herr : s.err = false) (blocks : List Block) :
    run (chainProgram blocks) s = run (drivenBlocks blocks) ((s.respond .done).setPrev (0#32, 0#32)) :=
  run_issue rfl (exec_cbcinit_of_ok (s := (s.respond .done).setInputs _) herr)

/-- The whole program of R194 ends at the last state of the chain from a zero accumulator. -/
theorem run_chainProgram {s : State} {key : List Byte} {blocks : List Block} {st : Word × Word} (herr : s.err = false)
    (hk : keyOk wgcore s.keylen = true) (hkey : readKey s = some key)
    (hlast : (chainStates wgcore (roundKeys key) (0#32, 0#32) blocks).getLast? = some st) :
    ∃ t, run (chainProgram blocks) s = .next t ∧ ShowsBlock st t := by
  cases blocks with
  | nil => cases hlast
  | cons p ps =>
    rw [chainStates, List.getLast?_cons, Option.some.injEq, ← List.getLastD_eq_getLast?] at hlast
    rw [run_chainProgram_eq herr, run_drivenBlocks_cons (s := (s.respond .done).setPrev _) herr hk hkey, ← hlast]
    exact run_drivenBlocks (s := afterDrivenBlock _ p _) herr hk hkey ⟨rfl, rfl, rfl⟩ ps

/-- Settles O56: both forms end at the last state of the chain of R190. -/
theorem chainingFormsAgree : Obligations.ChainingFormsAgree := by
  intro s key blocks herr hk hkey hblocks plain cipher
  have hlen : plain.length = 8 * blocks.length := length_flatten_blockBytes blocks
  have hwhole : plain.length % 8 = 0 := by omega
  have hpos : blocks.length ≠ 0 := mt List.length_eq_zero_iff.mp hblocks
  obtain ⟨st, hlastPlain⟩ := Option.isSome_iff_exists.mp
    (Option.isSome_of_eq_some (chainStates_blocksOf_getLast? wgcore key hwhole (by omega)))
  have hlast : (chainStates wgcore (roundKeys key) (0#32, 0#32) blocks).getLast? = some st := by
    rwa [blocksOf_flatten_blockBytes] at hlastPlain
  have hout : blockOf cipher (plain.length - 8) = finishBlock wgcore st := blockOf_encryptChained_last hwhole hlastPlain
  obtain ⟨t, hrun, ht⟩ := run_chainProgram herr hk hkey hlast
  refine ⟨t, hrun, ht.dout.trans hout.symm, ht.prev.trans hout.symm, ?_⟩
  intro u huerr hukeylen hukeymem hudlen hmax hudata
  have hukey : readKey u = some key := by rw [readKey, hukeylen, hukeymem, hkey]
  have hdlen : dlenOk wgcore u.dlen = true := (dlenOk_iff _ _).mpr ⟨hudlen ▸ hwhole, hudlen ▸ hmax⟩
  obtain ⟨hprev0, hprev1⟩ := Prod.ext_iff.mp ht.prev
  obtain ⟨hsl, hsr⟩ := Prod.ext_iff.mp ht.round
  exact ⟨_, exec_cbcbuf_of_last huerr (hukeylen ▸ hk) hdlen hukey hudata hlastPlain,
    hudlen ▸ readBytes_afterCbcbuf hwhole, hprev0.symm, hprev1.symm, hsl.symm, hsr.symm⟩

end Sys2Proof.Safety
end

section
/-! The error state (60_exceptions.md R211 step 1, R213): with ERR = 1 every command is ignored, and no input but the
two resets ends it. Last, the input that no state answers: the access of a second host (R225). -/

namespace Sys2Proof.Machine

open Sys2Proof.Safety

/-- Every command takes R211 step 1 first. -/
theorem exec_of_err {s : State} (herr : s.err = true) (i : Instr) : exec i s = .next s := by
  cases i with
  | round k => exact keyCommand_of_err herr _
  | encblk => exact keyCommand_of_err herr _
  | cbcblk => exact keyCommand_of_err herr _
  | cbcbuf => exact keyCommand_of_err herr _
  | _ => exact command_of_err herr _

/-- An illegal word is ignored too: R211 step 1 comes before step 2. -/
theorem writeCmd_of_err {s : State} (herr : s.err = true) (w : Word) : writeCmd w s = .next s := by
  cases hw : decode w with
  | ok i => rw [writeCmd_of_ok hw, exec_of_err herr]
  | error e => rw [writeCmd_of_error hw, command_of_err herr]

/-- Settles O9: the CMD write is acknowledged, and `writeCmd` changes nothing in the error state. -/
theorem errorStateIgnoresEveryCommandWord : Obligations.ErrorStateIgnoresEveryCommandWord :=
  fun s w rest herr hin => (step_writeWord_reg hin (target_cmdOffset wgcore)).trans
    (writeCmd_of_err (s := (s.setInputs rest).respond .done) herr w)

/-- CTRL is reached by the word access at its offset alone (10_state.md R29). -/
theorem target_eq_ctrl {c : Config} {n : Nat} {o : Offset} (h : target c n o = some (.reg .ctrl)) :
    n = 4 ∧ o = 0x00C#12 := by
  obtain ⟨-, hn, -, hreg⟩ := target_eq_reg h
  refine ⟨hn, BitVec.eq_of_toNat_eq ?_⟩
  unfold busRegAt at hreg
  split at hreg <;> cases hreg
  assumption

theorem writeReg_keeps_error {r : BusReg} {w : Word} {s t : State} (herr : s.err = true)
    (hkeep : ¬ (r = .ctrl ∧ w.getLsbD 0 = true)) (h : writeReg r w s = .next t) :
    t.err = true ∧ t.ecode = s.ecode := by
  obtain ⟨-, hw⟩ | ⟨hctrl, hw⟩ | ⟨d, -, -, hw⟩ | hw := writeReg_cases r w s <;> rw [hw] at h
  · rw [writeCmd_of_err herr] at h
    cases h
    exact ⟨herr, rfl⟩
  · cases h
    obtain ⟨hbit, -⟩ | ⟨-, hc⟩ := writeCtrl_cases w s
    · exact absurd ⟨hctrl, hbit⟩ hkeep
    · rw [hc]
      exact ⟨herr, rfl⟩
  · cases h
    exact ⟨(State.setReg_err s d w).trans herr, State.setReg_ecode s d w⟩
  · cases h
    exact ⟨herr, rfl⟩

theorem hostWrite_keeps_error {c : Config} {n : Nat} {o : Offset} {w : Word} {s t : State} (herr : s.err = true)
    (hkeep : ¬ (n = 4 ∧ o = 0x00C#12 ∧ w.getLsbD 0 = true)) (h : hostWrite c n o w s = .next t) :
    t.err = true ∧ t.ecode = s.ecode := by
  obtain ⟨-, hw⟩ | ⟨r, ho, hw⟩ | ⟨j, -, hw⟩ | ⟨j, -, hw⟩ := hostWrite_cases c n o w s <;> rw [hw] at h
  · cases h
  · refine writeReg_keeps_error (s := s.respond .done) herr ?_ h
    rintro ⟨rfl, hbit⟩
    obtain ⟨hn, hoff⟩ := target_eq_ctrl ho
    exact hkeep ⟨hn, hoff, hbit⟩
  · cases h
    exact ⟨herr, rfl⟩
  · cases h
    exact ⟨herr, rfl⟩

theorem hostRead_keeps_error {c : Config} {n : Nat} {o : Offset} {s t : State} (herr : s.err = true)
    (h : hostRead c n o s = .next t) : t.err = true ∧ t.ecode = s.ecode := by
  obtain ⟨r, rfl⟩ := hostRead_eq_next h
  exact ⟨herr, rfl⟩

/-- Of the host's accesses the soft reset alone ends the error state (R213). -/
theorem hostAccess_keeps_error {c : Config} {a : Access} {s t : State} (herr : s.err = true)
    (hkeep : ¬ ∃ v : Word, a = .writeWord 0x00C#12 v ∧ v.getLsbD 0 = true) (h : hostAccess c a s = .next t) :
    t.err = true ∧ t.ecode = s.ecode := by
  cases a with
  | readByte o => exact hostRead_keeps_error herr h
  | readHalf o => exact hostRead_keeps_error herr h
  | readWord o => exact hostRead_keeps_error herr h
  | writeByte o v => exact hostWrite_keeps_error herr (fun ⟨hn, _⟩ => nomatch hn) h
  | writeHalf o v => exact hostWrite_keeps_error herr (fun ⟨hn, _⟩ => nomatch hn) h
  | writeWord o v => exact hostWrite_keeps_error herr (fun ⟨_, hoff, hbit⟩ => hkeep ⟨v, by rw [hoff], hbit⟩) h

/-- The CTRL write with bit 0 set is the soft reset (70_reset_and_hazards.md R241). -/
theorem step_softReset {s : State} {v : Word} {rest : List Input} (hin : NextAccess s (.writeWord 0x00C#12 v) rest)
    (hbit : v.getLsbD 0 = true) : step s = .next ({ s with inputs := rest, response := .done } : State).softReset :=
  (step_writeWord_reg hin rfl).trans (congrArg _ (if_pos hbit))

/-- Settles O10: both resets clear ERR and ECODE, and every other input keeps them. -/
theorem errorStateEndsOnlyByReset : Obligations.ErrorStateEndsOnlyByReset := by
  intro s t i rest herr hin h
  refine ⟨?_, fun hkeep => ?_⟩
  · rintro (rfl | ⟨v, rfl, hbit⟩)
    · rw [step_of_input hin] at h
      cases h
      exact ⟨rfl, rfl⟩
    · rw [step_softReset hin hbit] at h
      cases h
      exact ⟨rfl, rfl⟩
  · obtain ⟨hhard, hsoft⟩ := not_or.mp hkeep
    rw [step_of_input hin] at h
    cases i with
    | access a =>
      refine hostAccess_keeps_error (s := s.setInputs rest) herr ?_ h
      rintro ⟨v, rfl, hbit⟩
      exact hsoft ⟨v, rfl, hbit⟩
    | hardReset => exact absurd rfl hhard
    | otherHost a => cases h

/-- Settles O7: `applyInput` refuses the input form of a second host. -/
theorem secondHostIsRefused : Obligations.SecondHostIsRefused := fun _ _ _ hin => step_of_input hin

end Sys2Proof.Machine
end

section
/-! The violations and faults of commands (60_exceptions.md R210 to R212, R216): everything that a command can answer,
said once for all thirteen. -/

namespace Sys2Proof.Machine

/-- KEYOK = 0 in words, for the memory size of the machine (10_state.md R28). -/
theorem keyOk_eq_false_iff (w : Word) : keyOk wgcore w = false ↔ w.toNat = 0 ∨ w.toNat % 16 ≠ 0 ∨ 128 < w.toNat := by
  have hmax : wgcore.keyBytesMax = 128 := rfl
  rw [← Bool.not_eq_true, keyOk_iff]
  omega

/-- A DLEN that CBCBUF turns away, for the memory size of the machine (44_chaining.md R193). -/
theorem dlenOk_eq_false_iff (w : Word) : dlenOk wgcore w = false ↔ w.toNat % 8 ≠ 0 ∨ 64 < w.toNat := by
  have hmax : wgcore.dataBytesMax = 64 := rfl
  rw [← Bool.not_eq_true, dlenOk_iff]
  omega

/-- Settles O11: the four are the commands that check the key, and they do it before anything else. -/
theorem keyCommandsRaiseKeylenInvalid : Obligations.KeyCommandsRaiseKeylenInvalid := by
  intro i s hi herr hlen
  have hk := (keyOk_eq_false_iff s.keylen).mpr hlen
  obtain ⟨k, rfl⟩ | rfl | rfl | rfl := hi
  all_goals exact keyCommand_of_badKey herr hk _

/-- Settles O12: R211 step 4 comes after the key's check and before any read. -/
theorem cbcbufRaisesDlenInvalid : Obligations.CbcbufRaisesDlenInvalid := by
  intro s herr hk hdlen
  have hbad : ¬ dlenOk wgcore s.dlen = true := Bool.eq_false_iff.mp <| (dlenOk_eq_false_iff s.dlen).mpr hdlen
  exact (keyCommand_of_ok herr hk _).trans (if_neg hbad)

/-- Settles O13: R211 step 5 comes after the key's check and before any read. -/
theorem roundRaisesRoundIndex : Obligations.RoundRaisesRoundIndex :=
  fun _ _ herr hk hround => (keyCommand_of_ok herr hk _).trans (if_neg (Nat.not_lt.mpr hround))

/-- A read that a command makes after its checks meets an UNWRITTEN byte: one constructor for each such read
(43_feistel.md R163, R166; 44_chaining.md R192, R193). -/
inductive UnwrittenOperand (s : State) : Instr → Prop
  | chunk {k : BitVec 8} (hround : k.toNat < s.keylen.toNat / 16) (hread : readChunk s k.toNat = none) :
      UnwrittenOperand s (.round k)
  | encblkKey (hread : readKey s = none) : UnwrittenOperand s .encblk
  | cbcblkKey (hread : readKey s = none) : UnwrittenOperand s .cbcblk
  | cbcbufKey (hdlen : dlenOk wgcore s.dlen = true) (hread : readKey s = none) : UnwrittenOperand s .cbcbuf
  | cbcbufData (hdlen : dlenOk wgcore s.dlen = true) (hread : readData s = none) : UnwrittenOperand s .cbcbuf

/-- Everything that command `i` can answer in state `s`. -/
inductive CommandAnswer (s : State) (i : Instr) : Host.Outcome State Fault Refusal → Prop
  /-- it completes or is ignored, and ERR stays -/
  | completes {t : State} (hsame : t.err = s.err) : CommandAnswer s i (.next t)
  /-- a violation other than ILLEGAL_COMMAND, which is no command's, is recorded and nothing else (R212) -/
  | violates {v : Violation} (hv : v ≠ .illegalCommand) : CommandAnswer s i (.next (s.raise v))
  /-- a byte that it needs is UNWRITTEN, and all its checks have passed (R216) -/
  | faults (herr : s.err = false) (hk : keyOk wgcore s.keylen = true) (hop : UnwrittenOperand s i) :
      CommandAnswer s i (.fault .unwrittenRead)

theorem CommandAnswer.of_command {s : State} {i : Instr} {body : Host.Outcome State Fault Refusal}
    (hbody : s.err = false → CommandAnswer s i body) : CommandAnswer s i (command s body) := by
  obtain ⟨-, hc⟩ | ⟨herr, hc⟩ := command_cases s body <;> rw [hc]
  · exact .completes rfl
  · exact hbody herr

theorem CommandAnswer.of_keyCommand {s : State} {i : Instr} {body : Host.Outcome State Fault Refusal}
    (hbody : s.err = false → keyOk wgcore s.keylen = true → CommandAnswer s i body) :
    CommandAnswer s i (keyCommand wgcore s body) := by
  obtain ⟨-, hc⟩ | ⟨-, -, hc⟩ | ⟨herr, hk, hc⟩ := keyCommand_cases wgcore s body <;> rw [hc]
  · exact .completes rfl
  · exact .violates nofun
  · exact hbody herr hk

theorem CommandAnswer.of_needBytes {α : Type} {s : State} {i : Instr} {read : Option α}
    {body : α → Host.Outcome State Fault Refusal} (herr : s.err = false) (hk : keyOk wgcore s.keylen = true)
    (hop : read = none → UnwrittenOperand s i) (hbody : ∀ x, CommandAnswer s i (body x)) :
    CommandAnswer s i (needBytes read body) := by
  cases read with
  | none => exact .faults herr hk (hop rfl)
  | some x => exact hbody x

/-- Each command by its checks and reads, in the order of R211. -/
theorem exec_answer (i : Instr) (s : State) : CommandAnswer s i (exec i s) := by
  cases i with
  | encblk =>
    exact .of_keyCommand fun herr hk => .of_needBytes herr hk .encblkKey fun _ => .completes rfl
  | cbcblk =>
    exact .of_keyCommand fun herr hk => .of_needBytes herr hk .cbcblkKey fun _ => .completes rfl
  | round k =>
    refine .of_keyCommand fun herr hk => ?_
    split
    case isTrue hround => exact .of_needBytes herr hk (.chunk hround) fun _ => .completes rfl
    case isFalse => exact .violates nofun
  | cbcbuf =>
    refine .of_keyCommand fun herr hk => ?_
    split
    case isTrue hdlen =>
      refine .of_needBytes herr hk (.cbcbufKey hdlen) fun _ => .of_needBytes herr hk (.cbcbufData hdlen) fun _ => ?_
      simp only
      split <;> exact .completes rfl
    case isFalse => exact .violates nofun
  | _ => exact .of_command fun _ => .completes rfl

/-- Settles O14: a command that completes keeps ERR, so the one that sets it has recorded a violation. -/
theorem violationWritesNothingButTheError : Obligations.ViolationWritesNothingButTheError := by
  intro i s t herr h hset
  have hanswer : CommandAnswer s i (.next t) := h ▸ exec_answer i s
  cases hanswer with
  | completes hsame => simp [hsame, herr] at hset
  | @violates v hv =>
    refine ⟨rfl, ?_⟩
    cases v with
    | illegalCommand => exact absurd rfl hv
    | keylenInvalid => exact .inl rfl
    | dlenInvalid => exact .inr (.inl rfl)
    | roundIndex => exact .inr (.inr rfl)

theorem readKey_eq_none_iff {s : State} : readKey s = none ↔ ∃ j, j < s.keylen.toNat ∧ s.keymem.read j = none := by
  simp only [readKey, Memory.readBytes_eq_none, Nat.zero_add]

theorem readData_eq_none_iff {s : State} : readData s = none ↔ ∃ j, j < s.dlen.toNat ∧ s.datamem.read j = none := by
  simp only [readData, Memory.readBytes_eq_none, Nat.zero_add]

theorem exec_ne_refused (i : Instr) (s : State) (r : Refusal) : exec i s ≠ .refused r := by
  intro h
  have hanswer : CommandAnswer s i (.refused r) := h ▸ exec_answer i s
  cases hanswer

theorem exec_eq_fault {i : Instr} {s : State} {f : Fault} (h : exec i s = .fault f) :
    f = .unwrittenRead ∧ s.err = false ∧ keyOk wgcore s.keylen = true ∧ UnwrittenOperand s i := by
  have hanswer : CommandAnswer s i (.fault f) := h ▸ exec_answer i s
  cases hanswer with
  | faults herr hk hop => exact ⟨rfl, herr, hk, hop⟩

/-- Settles O15: no answer is a refusal, and of a fault the read that failed names the UNWRITTEN byte. -/
theorem commandFaultsOnlyOnUnwrittenBytes : Obligations.CommandFaultsOnlyOnUnwrittenBytes := by
  intro i s
  refine ⟨exec_ne_refused i s, fun f h => ?_⟩
  obtain ⟨hf, herr, hk, hop⟩ := exec_eq_fault h
  refine ⟨hf, herr, hk, ?_⟩
  cases hop with
  | chunk hround hread =>
    exact .inl ⟨_, rfl, hround, (Memory.readBytes_eq_none _ _ _).mp (readChunk_eq_none.mp hread)⟩
  | encblkKey hread => exact .inr (.inl ⟨.inl rfl, readKey_eq_none_iff.mp hread⟩)
  | cbcblkKey hread => exact .inr (.inl ⟨.inr rfl, readKey_eq_none_iff.mp hread⟩)
  | cbcbufKey hdlen hread => exact .inr (.inr ⟨rfl, hdlen, .inl (readKey_eq_none_iff.mp hread)⟩)
  | cbcbufData hdlen hread => exact .inr (.inr ⟨rfl, hdlen, .inr (readData_eq_none_iff.mp hread)⟩)

end Sys2Proof.Machine
end

section
/-! Hard reset (70_reset_and_hazards.md R240): the values of the reset state, and the step that restores it. -/

namespace Sys2Proof.Machine

/-- Settles O34: the reset state is what a hard reset leaves of itself. -/
theorem resetMeetsTheInvariant : Obligations.ResetMeetsTheInvariant := inv_hardReset State.reset

/-- Settles O42: `applyInput` hard-resets the state whose pending inputs are the rest. -/
theorem hardResetRestoresTheResetState : Obligations.HardResetRestoresTheResetState := fun _ _ hin => step_of_input hin

theorem reg_reset (r : Reg) : State.reset.reg r = 0#32 := by cases r <;> rfl

/-- Settles O43: the registers, flags and read-only words by their values, the memories because they list no byte. -/
theorem resetValuesOfTheSpec : Obligations.ResetValuesOfTheSpec :=
  ⟨reg_reset, rfl, rfl, rfl, rfl, rfl, rfl, rfl, fun j => ⟨Memory.read_nil j, Memory.read_nil j⟩⟩

end Sys2Proof.Machine
end

section
/-! The boot sequence (70_reset_and_hazards.md R242): what each of its accesses does to the run that goes on after it, the
state in which CBCBUF finds key and buffer, and the whole run. -/

namespace Sys2Proof.Machine

/-- The bus admits the word access at DATAMEM offset `o` (20_memory.md R52). -/
theorem target_datamem_word {o : Nat} (halign : o % 4 = 0) (hfits : o + 4 ≤ 64) :
    target wgcore 4 (BitVec.ofNat 12 (0x800 + o)) = some (.data o) := by
  have ho : (BitVec.ofNat 12 (0x800 + o)).toNat = 0x800 + o := Nat.mod_eq_of_lt (by omega)
  rw [target_of_data (.inr ⟨rfl, by omega⟩) (by omega) (by omega), ho, Nat.add_sub_cancel_left]

/-- The first `n + 1` words of a byte string are written by writing its first `n` words and then word `n`. -/
theorem Memory.writeBytes_take_succ (m : Memory) {b : List Byte} {n : Nat} (h : 4 * (n + 1) ≤ b.length) :
    m.writeBytes 0 (b.take (4 * (n + 1))) =
      (m.writeBytes 0 (b.take (4 * n))).writeBytes (4 * n) (packLe32 (le32 b (4 * n))) := by
  have htake : b.take (4 * (n + 1)) = b.take (4 * n) ++ packLe32 (le32 b (4 * n)) := by
    rw [packLe32_le32_at (by omega), ← List.take_add]
    rfl
  have hend : 0 + (b.take (4 * n)).length = 4 * n := by
    rw [List.length_take]
    omega
  rw [htake, Memory.writeBytes_append, hend]

/-- CBCBUF on any buffer it accepts, the empty one too, key and buffer written (44_chaining.md R193). -/
theorem exec_cbcbuf_of_readData {s : State} {key plain : List Byte} (herr : s.err = false)
    (hk : keyOk wgcore s.keylen = true) (hdlen : dlenOk wgcore s.dlen = true) (hkey : readKey s = some key)
    (hplain : readData s = some plain) :
    ∃ t, exec .cbcbuf s = .next t ∧ t.err = false ∧ t.inputs = s.inputs ∧
      t.datamem.readBytes 0 plain.length = some (encryptChained wgcore plain key) := by
  have hlen : plain.length = s.dlen.toNat := Memory.length_of_readBytes _ _ _ _ hplain
  by_cases hempty : s.dlen = 0#32
  · obtain rfl : plain = [] := List.length_eq_zero_iff.mp (by rw [hlen, hempty]; rfl)
    exact ⟨_, cbcbufOnAnEmptyBufferClearsPrev s key herr hk hempty hkey, herr, rfl, rfl⟩
  · have hwhole : plain.length % 8 = 0 := hlen ▸ ((dlenOk_iff wgcore s.dlen).mp hdlen).1
    have hpos : plain.length ≠ 0 := fun h => hempty (BitVec.eq_of_toNat_eq (hlen ▸ h))
    exact ⟨_, exec_cbcbuf_of_last herr hk hdlen hkey hplain (chainStates_blocksOf_getLast? wgcore key hwhole hpos), herr,
      rfl, readBytes_afterCbcbuf hwhole⟩

end Sys2Proof.Machine

namespace Sys2Proof.Safety

open Sys2Proof.Machine Sys2Proof.HostSide

/-- `rd REG` only answers the host (R88; 20_memory.md R57). -/
theorem run_rdAt_reg {o : Offset} {r : BusReg} (ho : target wgcore 4 o = some (.reg r)) (is : List Input) (s : State) :
    run (rdAt o :: is) s = run is (s.respond (.word (readReg wgcore s r))) := by
  have hvalue : readReg wgcore (s.setInputs is) r = readReg wgcore s r :=
    readReg_respond_setInputs wgcore s s.response is r
  refine run_cons_of_next ((hostRead_reg (s.setInputs is) ho).trans ?_)
  rw [hvalue]
  rfl

/-- `wrd o, v`, wholly inside DATAMEM (R88; 20_memory.md R54). -/
theorem run_wrd {o : Nat} (halign : o % 4 = 0) (hfits : o + 4 ≤ 64) (v : Word) (is : List Input) (s : State) :
    run (wrd o v :: is) s = run is { s with datamem := s.datamem.writeBytes o (packLe32 v), response := .done } :=
  run_cons_of_next (hostWrite_data v (s.setInputs is) (target_datamem_word halign hfits))

/-- The word read at DATAMEM offset `o`, where the bytes are written, only answers the host (20_memory.md R57). -/
theorem run_rdAt_datamem {o : Nat} {bs : List Byte} {s : State} (halign : o % 4 = 0) (hfits : o + 4 ≤ 64)
    (hread : s.datamem.readBytes o 4 = some bs) (is : List Input) :
    run (rdAt (BitVec.ofNat 12 (0x800 + o)) :: is) s = run is (s.respond (.word (le32 bs 0))) := by
  refine run_cons_of_next ((hostRead_data (s.setInputs is) (target_datamem_word halign hfits)).trans ?_)
  rw [windowAnswer, State.setInputs_datamem, hread, needBytes_some]
  rfl

/-- A list of inputs, one for each index below `n + 1`, ends with that of `n`. -/
theorem range_succ_map_append (f : Nat → Input) (n : Nat) (is : List Input) :
    (List.range (n + 1)).map f ++ is = (List.range n).map f ++ f n :: is := by
  simp [List.range_succ]

/-- `setkey` with more inputs after it (R89). -/
theorem run_setkey {key : List Byte} (hwords : key.length % 4 = 0) (hmax : key.length ≤ 128) (is : List Input)
    (s : State) :
    run (setkey key ++ is) s = run is { s with
      keymem := s.keymem.writeBytes 0 key, keylen := BitVec.ofNat 32 key.length, response := .done } := by
  have hwhole : key.take (4 * (key.length / 4)) = key := List.take_of_length_le (by omega)
  obtain ⟨x, hx⟩ :=
    run_setkey_words (n := key.length / 4) (by omega) hmax (wr .keylen (BitVec.ofNat 32 key.length) :: is) s
  rw [setkey, List.append_assoc, List.singleton_append, hx, hwhole, run_wr rfl]
  rfl

/-- The first `n` word writes of `setdata` leave the first `4 * n` bytes of the buffer in DATAMEM (R242). -/
theorem run_setdata_words {b : List Byte} {n : Nat} (hlen : 4 * n ≤ b.length) (hmax : b.length ≤ 64) (is : List Input)
    (s : State) :
    ∃ x, run ((List.range n).map (fun j => wrd (4 * j) (le32 b (4 * j))) ++ is) s =
      run is { s with datamem := s.datamem.writeBytes 0 (b.take (4 * n)), response := x } := by
  induction n generalizing is with
  | zero => exact ⟨s.response, rfl⟩
  | succ n ih =>
    obtain ⟨x, hx⟩ := ih (by omega) (wrd (4 * n) (le32 b (4 * n)) :: is)
    refine ⟨.done, ?_⟩
    rw [range_succ_map_append, hx, run_wrd (by omega) (by omega), Memory.writeBytes_take_succ _ hlen]

/-- `setdata` with more inputs after it (R242). -/
theorem run_setdata {b : List Byte} (hwords : b.length % 4 = 0) (hmax : b.length ≤ 64) (is : List Input) (s : State) :
    ∃ x, run (setdata b ++ is) s = run is { s with datamem := s.datamem.writeBytes 0 b, response := x } := by
  have hwhole : b.take (4 * (b.length / 4)) = b := List.take_of_length_le (by omega)
  have hrun := run_setdata_words (n := b.length / 4) (by omega) hmax is s
  rwa [hwhole] at hrun

/-- Reading a written buffer back by words only answers the host (R242; 20_memory.md R57). -/
theorem run_readback {b : List Byte} {n : Nat} {s : State} (hread : s.datamem.readBytes 0 b.length = some b)
    (hlen : 4 * n ≤ b.length) (hmax : b.length ≤ 64) (is : List Input) :
    ∃ x, run ((List.range n).map (fun j => rdAt (BitVec.ofNat 12 (0x800 + 4 * j))) ++ is) s = run is (s.respond x) := by
  induction n generalizing is with
  | zero => exact ⟨s.response, rfl⟩
  | succ n ih =>
    obtain ⟨x, hx⟩ := ih (by omega) (rdAt (BitVec.ofNat 12 (0x800 + 4 * n)) :: is)
    have hword := Memory.readBytes_drop_take hread (a := 4 * n) (l := 4) hlen
    rw [range_succ_map_append, hx]
    exact ⟨_, run_rdAt_datamem (s := s.respond x) (by omega) (by omega) hword is⟩

/-- The state in which CBCBUF finds `key` and `plain`: both in their memories, with their lengths (R242). -/
def bootLoaded (s : State) (key plain : List Byte) : State :=
  { s with
    keymem := s.keymem.writeBytes 0 key, keylen := BitVec.ofNat 32 key.length
    datamem := s.datamem.writeBytes 0 plain, dlen := BitVec.ofNat 32 plain.length, response := .done }

/-- The last three steps of the boot sequence: encrypt, look at STATUS, read the ciphertext back (R242). -/
def bootEncrypt (n : Nat) : List Input :=
  issue .cbcbuf :: rdAt statusOffset :: (List.range (n / 4)).map fun j => rdAt (BitVec.ofNat 12 (0x800 + 4 * j))

/-- The boot sequence up to CBCBUF loads key and buffer (R242). -/
theorem run_bootProgram {key plain : List Byte} (hkey : key.length % 4 = 0) (hkeyMax : key.length ≤ 128)
    (hplain : plain.length % 4 = 0) (hplainMax : plain.length ≤ 64) (s : State) :
    run (bootProgram key plain) s = run (bootEncrypt plain.length) (bootLoaded s key plain) := by
  have hsteps : bootProgram key plain =
      rdAt idOffset :: rdAt configOffset :: (setkey key ++ rdAt statusOffset ::
        (setdata plain ++ wr .dlen (BitVec.ofNat 32 plain.length) :: bootEncrypt plain.length)) := by
    simp [bootProgram, bootEncrypt]
  rw [hsteps, run_rdAt_reg (r := .id) rfl, run_rdAt_reg (r := .config) rfl, run_setkey hkey hkeyMax,
    run_rdAt_reg (r := .status) rfl]
  obtain ⟨x, hx⟩ := run_setdata hplain hplainMax _ _
  rw [hx, run_wr rfl]
  rfl

theorem keylen_bootLoaded_toNat (s : State) {key : List Byte} (hmax : key.length ≤ 128) (plain : List Byte) :
    (bootLoaded s key plain).keylen.toNat = key.length :=
  Nat.mod_eq_of_lt (by omega)

theorem dlen_bootLoaded_toNat (s : State) (key : List Byte) {plain : List Byte} (hmax : plain.length ≤ 64) :
    (bootLoaded s key plain).dlen.toNat = plain.length :=
  Nat.mod_eq_of_lt (by omega)

theorem readKey_bootLoaded (s : State) {key : List Byte} (hmax : key.length ≤ 128) (plain : List Byte) :
    readKey (bootLoaded s key plain) = some key := by
  rw [readKey, keylen_bootLoaded_toNat s hmax]
  exact Memory.readBytes_writeBytes key s.keymem 0

theorem readData_bootLoaded (s : State) (key : List Byte) {plain : List Byte} (hmax : plain.length ≤ 64) :
    readData (bootLoaded s key plain) = some plain := by
  rw [readData, dlen_bootLoaded_toNat s key hmax]
  exact Memory.readBytes_writeBytes plain s.datamem 0

/-- CBCBUF and the reads after it, from a state in which key and buffer are loaded, all complete (R242). -/
theorem run_bootEncrypt {s : State} {key plain : List Byte} (herr : s.err = false) (hk : keyOk wgcore s.keylen = true)
    (hdlen : dlenOk wgcore s.dlen = true) (hkey : readKey s = some key) (hplain : readData s = some plain) :
    ∃ t, run (bootEncrypt plain.length) s = .next t ∧ t.err = false ∧
      t.datamem.readBytes 0 plain.length = some (encryptChained wgcore plain key) := by
  have hplainLen : plain.length = s.dlen.toNat := Memory.length_of_readBytes _ _ _ _ hplain
  obtain ⟨hwhole, hmax⟩ := (dlenOk_iff wgcore s.dlen).mp hdlen
  have hlen : (encryptChained wgcore plain key).length = plain.length :=
    encryptChained_length_of_whole wgcore key (hplainLen ▸ hwhole)
  obtain ⟨t, hexec, hterr, hinputs, hcipher⟩ :=
    exec_cbcbuf_of_readData (s := (s.respond .done).setInputs (bootEncrypt plain.length).tail) herr hk hdlen hkey hplain
  have hissue : run (bootEncrypt plain.length) s = run (bootEncrypt plain.length).tail t := by
    refine run_issue rfl (hexec.trans ?_)
    exact congrArg (fun is => Host.Outcome.next (t.setInputs is)) hinputs
  rw [hissue, bootEncrypt, List.tail_cons, run_rdAt_reg (r := .status) rfl]
  obtain ⟨x, hx⟩ := run_readback (b := encryptChained wgcore plain key) (n := plain.length / 4)
    (s := t.respond (.word (readReg wgcore t .status))) (hlen ▸ hcipher) (by omega)
    (hlen.trans hplainLen ▸ hmax) []
  rw [List.append_nil, run_nil] at hx
  exact ⟨_, hx, hterr, hcipher⟩

/-- Settles O59: the accesses before CBCBUF load key and buffer, CBCBUF encrypts, and the reads after it only answer. -/
theorem bootSequenceEncryptsABuffer : Obligations.BootSequenceEncryptsABuffer := by
  intro s key plain herr hkeyWhole hkeyPos hkeyMax hplainWhole hplainMax
  have hk : keyOk wgcore (bootLoaded s key plain).keylen = true :=
    (keyOk_iff _ _).mpr ((keylen_bootLoaded_toNat s hkeyMax plain).symm ▸ ⟨hkeyPos, hkeyWhole, hkeyMax⟩)
  have hd : dlenOk wgcore (bootLoaded s key plain).dlen = true :=
    (dlenOk_iff _ _).mpr ((dlen_bootLoaded_toNat s key hplainMax).symm ▸ ⟨hplainWhole, hplainMax⟩)
  rw [run_bootProgram (by omega) hkeyMax (by omega) hplainMax]
  exact run_bootEncrypt herr hk hd (readKey_bootLoaded s hkeyMax plain) (readData_bootLoaded s key hplainMax)

end Sys2Proof.Safety
end
